-- ==== Sys2Proof/Word.lean ====
section
/-! DEFINITION. The widths every file uses (spec/00_scope.md R8 to R10): bytes, FIFO and frame words, channel indices, and
arithmetic on unbounded naturals with saturation to a field width. -/

namespace Sys2Proof

/-- A byte of client memory or of a command operand. -/
abbrev Byte := BitVec 8

/-- A 32-bit word: a FIFO word, a word of a command frame, a register image, a client address. -/
abbrev Word := BitVec 32

/-- The channel's cause word: eleven bits are used (R28, R111). -/
abbrev CauseWord := BitVec 11

/-- A channel index, 0 to 15 (R8). -/
abbrev ChanId := Fin 16

/-- `ceil(a / b)` on unbounded naturals (R10). Every use has `b > 0` in a reachable state (log 10 says what happens
otherwise). -/
def ceilDiv (a b : Nat) : Nat := (a + b - 1) / b

/-- `sat_W(v) = min(v, 2^W - 1)` (R10). -/
def sat (w v : Nat) : BitVec w := BitVec.ofNat w (min v (2 ^ w - 1))

end Sys2Proof
end

