-- ==== Sys2Proof/Syntax.lean ====
section
/-! DEFINITION. One constructor per row of spec/opcode_table.json: sixteen commands, five global sources, eleven channel
causes, five receive-status classes, two port causes. Operands are the raw fields of the encoded word
(spec/30_encoding.md R103, R112, R114); `rsv` gathers the reserved bits of a command frame, high bits first, so that each
meaning makes the reserved-field check of R120 itself. -/

namespace Sys2Proof

/-- What the sequencer runs. A cause row carries the channel whose word it was read from. -/
inductive Instr where
  -- client commands (R101, R103)
  | cmdInitialize (portCb epCb : Bool) (rsv : BitVec 22)
  | cmdUninitialize (rsv : BitVec 24)
  | cmdPowerControl (on : Bool) (rsv : BitVec 23)
  | cmdPortVbus (port : BitVec 8) (on : Bool) (rsv : BitVec 15)
  | cmdPortReset (port : BitVec 8) (rsv : BitVec 16)
  | cmdPortSuspend (port : BitVec 8) (rsv : BitVec 16)
  | cmdPortResume (port : BitVec 8) (rsv : BitVec 16)
  | cmdPortGetState (port : BitVec 8) (rsv : BitVec 16)
  | cmdGetFrameNumber (rsv : BitVec 24)
  | cmdEpCreate (devAddr : BitVec 7) (devSpeed : BitVec 2) (epNum : BitVec 4) (epDir : Bool) (epType : BitVec 2)
      (mps : BitVec 16) (interval : BitVec 8) (rsv : BitVec 16)
  | cmdEpModify (handle : BitVec 8) (devAddr : BitVec 7) (devSpeed : BitVec 2) (mps : BitVec 16) (rsv : BitVec 23)
  | cmdEpDelete (handle : BitVec 8) (rsv : BitVec 16)
  | cmdEpReset (handle : BitVec 8) (rsv : BitVec 16)
  | cmdEpTransfer (handle : BitVec 8) (token toggle : BitVec 4) (buf len : Word) (rsv : BitVec 8)
  | cmdEpTransferResult (handle : BitVec 8) (rsv : BitVec 16)
  | cmdEpTransferAbort (handle : BitVec 8) (rsv : BitVec 16)
  -- global interrupt sources, in the order of the passes (R222)
  | gintHprtint
  | gintDiscint
  | gintRxflvl
  | gintHcint
  | gintSof
  -- channel causes (R111)
  | hcintXfrc (ch : ChanId)
  | hcintStall (ch : ChanId)
  | hcintNak (ch : ChanId)
  | hcintAck (ch : ChanId)
  | hcintTxerr (ch : ChanId)
  | hcintBberr (ch : ChanId)
  | hcintDterr (ch : ChanId)
  | hcintChh (ch : ChanId)
  | hcintNyet (ch : ChanId)
  | hcintRsv2 (ch : ChanId)
  | hcintRsv9 (ch : ChanId)
  -- receive-status classes (R112, R113); `rsv` is bits 31:21, ignored
  | rxstsInData (chnum : ChanId) (bcnt : BitVec 11) (dpid : BitVec 2) (rsv : BitVec 11)
  | rxstsInXferDone (chnum : ChanId) (bcnt : BitVec 11) (dpid : BitVec 2) (rsv : BitVec 11)
  | rxstsToggleErr (chnum : ChanId) (bcnt : BitVec 11) (dpid : BitVec 2) (rsv : BitVec 11)
  | rxstsChHalted (chnum : ChanId) (bcnt : BitVec 11) (dpid : BitVec 2) (rsv : BitVec 11)
  | rxstsOther (chnum : ChanId) (bcnt : BitVec 11) (dpid : BitVec 2) (pktsts : BitVec 4) (rsv : BitVec 11)
  -- port causes (R114, R260)
  | hprtPcdet
  | hprtPenchng (pena : Bool) (pspd : BitVec 2)
  deriving DecidableEq, Repr

/-- The sixteen command opcodes (R101). -/
inductive CmdOp where
  | startUp | shutDown | powerControl | portVbus | portReset | portSuspend | portResume | portGetState
  | getFrameNumber | epCreate | epModify | epDelete | epReset | epTransfer | epTransferResult | epTransferAbort
  deriving DecidableEq, Repr

/-- An encoded unit: one of the five kinds of encoded word (R100). A channel cause word comes with the channel whose
register holds it. -/
inductive Encoded where
  | cmd (ws : List Word)
  | gint (w : Word)
  | hcint (ch : ChanId) (w : Word)
  | rxsts (w : Word)
  | hprt (w : Word)
  deriving DecidableEq, Repr

end Sys2Proof
end

