-- ==== Sys2Proof/WellFormed.lean ====
section
/-! DEFINITION. The legal encodings (spec/30_encoding.md R103, R105, R108, R113, R120, R124; the `illegal` column of
spec/opcode_table.json): reserved fields zero, enumerations and the packet size in range, a receive code in the class its
row names. An ill-formed command still has a meaning (R120: the error result, no effect). Handles and port indices are
not checked here: the spec calls a frame that names no channel or no port a command with an error result, not an illegal
encoding. -/

namespace Sys2Proof

/-- Speed 3 is illegal (R105). -/
def speedOk (speed : BitVec 2) : Bool := speed != 3#2

/-- Legal packet sizes are 1 to 2047 (R9, R144). -/
def mpsOk (mps : BitVec 16) : Bool := mps != 0#16 && mps.toNat ≤ 2047

/-- Tokens are 1 to 4 (R108). -/
def tokenOk (token : BitVec 4) : Bool := 1 ≤ token.toNat && token.toNat ≤ 4

/-- Toggles are 1 and 2 (R108). -/
def toggleOk (toggle : BitVec 4) : Bool := 1 ≤ toggle.toNat && toggle.toNat ≤ 2

/-- A receive status code of the class OTHER: none of 2, 3, 5, 7 (R113). -/
def otherCode (pktsts : BitVec 4) : Bool :=
  pktsts != 2#4 && pktsts != 3#4 && pktsts != 5#4 && pktsts != 7#4

/-- The encoding of the instruction is one the spec calls legal. -/
def Instr.wf : Instr → Bool
  | .cmdInitialize _ _ rsv => rsv == 0
  | .cmdUninitialize rsv => rsv == 0
  | .cmdPowerControl _ rsv => rsv == 0
  | .cmdPortVbus _ _ rsv => rsv == 0
  | .cmdPortReset _ rsv => rsv == 0
  | .cmdPortSuspend _ rsv => rsv == 0
  | .cmdPortResume _ rsv => rsv == 0
  | .cmdPortGetState _ rsv => rsv == 0
  | .cmdGetFrameNumber rsv => rsv == 0
  | .cmdEpCreate _ devSpeed _ _ _ mps _ rsv => rsv == 0 && speedOk devSpeed && mpsOk mps
  | .cmdEpModify _ _ devSpeed mps rsv => rsv == 0 && speedOk devSpeed && mpsOk mps
  | .cmdEpDelete _ rsv => rsv == 0
  | .cmdEpReset _ rsv => rsv == 0
  | .cmdEpTransfer _ token toggle _ _ rsv => rsv == 0 && tokenOk token && toggleOk toggle
  | .cmdEpTransferResult _ rsv => rsv == 0
  | .cmdEpTransferAbort _ rsv => rsv == 0
  | .gintHprtint => true
  | .gintDiscint => true
  | .gintRxflvl => true
  | .gintHcint => true
  | .gintSof => true
  | .hcintXfrc _ => true
  | .hcintStall _ => true
  | .hcintNak _ => true
  | .hcintAck _ => true
  | .hcintTxerr _ => true
  | .hcintBberr _ => true
  | .hcintDterr _ => true
  | .hcintChh _ => true
  | .hcintNyet _ => true
  | .hcintRsv2 _ => true
  | .hcintRsv9 _ => true
  | .rxstsInData _ _ _ _ => true
  | .rxstsInXferDone _ _ _ _ => true
  | .rxstsToggleErr _ _ _ _ => true
  | .rxstsChHalted _ _ _ _ => true
  | .rxstsOther _ _ _ pktsts _ => otherCode pktsts
  | .hprtPcdet => true
  | .hprtPenchng _ _ => true

end Sys2Proof
end

