-- ==== Sys2Proof/Decode.lean ====
section
/-! DEFINITION. The decoders of the five formats (spec/30_encoding.md R100 to R103, R110 to R114, R120, R124 to R126), total
on any words and rejecting by name, and the encoder written from the same tables. -/

namespace Sys2Proof

/-! ### Bit fields (R10) -/

/-- `w[i]`. -/
def bit (w : Word) (i : Nat) : Bool := w.getLsbD i

/-- `w[lo + n - 1 : lo]`, a field of `n` bits. -/
def field (w : Word) (lo n : Nat) : BitVec n := w.extractLsb' lo n

/-- A four-bit channel number names one of the sixteen channels (R112). -/
def chanOfBits (b : BitVec 4) : ChanId := ⟨b.toNat, b.isLt⟩

/-- The four-bit channel number of a channel (R112). -/
def chanBits (c : ChanId) : BitVec 4 := BitVec.ofNat 4 c.val

/-- The word with only bit `i` set. -/
def oneHot (i : Nat) : Word := BitVec.ofNat 32 (2 ^ i)

/-! ### Command frames (R101, R102) -/

/-- Opcode numbers (R101). -/
def CmdOp.code : CmdOp → Byte
  | .startUp => 0x01#8
  | .shutDown => 0x02#8
  | .powerControl => 0x03#8
  | .portVbus => 0x10#8
  | .portReset => 0x11#8
  | .portSuspend => 0x12#8
  | .portResume => 0x13#8
  | .portGetState => 0x14#8
  | .getFrameNumber => 0x15#8
  | .epCreate => 0x20#8
  | .epModify => 0x21#8
  | .epDelete => 0x22#8
  | .epReset => 0x23#8
  | .epTransfer => 0x24#8
  | .epTransferResult => 0x25#8
  | .epTransferAbort => 0x26#8

/-- The opcode a byte stands for, if it is one of the sixteen (R101, R120). -/
def opOfCode (b : Byte) : Option CmdOp :=
  [CmdOp.startUp, .shutDown, .powerControl, .portVbus, .portReset, .portSuspend, .portResume, .portGetState,
    .getFrameNumber, .epCreate, .epModify, .epDelete, .epReset, .epTransfer, .epTransferResult,
    .epTransferAbort].find? (fun op => op.code == b)

/-- Frame words: a function of the opcode alone (R101, R102, R126). -/
def CmdOp.words : CmdOp → Nat
  | .epCreate => 2
  | .epModify => 2
  | .epTransfer => 3
  | _ => 1

/-- Operand assembly per command (R103, R108, R124): `w0[7:0]` opcode, `w0[15:8]` = a, `w0[23:16]` = b,
`w0[31:24]` = c. -/
def assemble (op : CmdOp) (w0 w1 w2 : Word) : Instr :=
  match op with
  | .startUp => .cmdInitialize (bit w0 16) (bit w0 17) (field w0 18 14 ++ field w0 8 8)
  | .shutDown => .cmdUninitialize (field w0 8 24)
  | .powerControl => .cmdPowerControl (bit w0 16) (field w0 17 15 ++ field w0 8 8)
  | .portVbus => .cmdPortVbus (field w0 8 8) (bit w0 16) (field w0 17 15)
  | .portReset => .cmdPortReset (field w0 8 8) (field w0 16 16)
  | .portSuspend => .cmdPortSuspend (field w0 8 8) (field w0 16 16)
  | .portResume => .cmdPortResume (field w0 8 8) (field w0 16 16)
  | .portGetState => .cmdPortGetState (field w0 8 8) (field w0 16 16)
  | .getFrameNumber => .cmdGetFrameNumber (field w0 8 24)
  | .epCreate => .cmdEpCreate (field w0 8 7) (field w0 24 2) (field w0 16 4) (bit w0 23) (field w0 26 2)
      (field w1 0 16) (field w1 16 8) (field w1 24 8 ++ field w0 28 4 ++ field w0 20 3 ++ field w0 15 1)
  | .epModify => .cmdEpModify (field w0 8 8) (field w0 16 7) (field w0 24 2) (field w1 0 16)
      (field w1 16 16 ++ field w0 26 6 ++ field w0 23 1)
  | .epDelete => .cmdEpDelete (field w0 8 8) (field w0 16 16)
  | .epReset => .cmdEpReset (field w0 8 8) (field w0 16 16)
  | .epTransfer => .cmdEpTransfer (field w0 8 8) (field w0 16 4) (field w0 20 4) w1 w2 (field w0 24 8)
  | .epTransferResult => .cmdEpTransferResult (field w0 8 8) (field w0 16 16)
  | .epTransferAbort => .cmdEpTransferAbort (field w0 8 8) (field w0 16 16)

/-- Why a unit is no instruction. -/
inductive DecodeReject where
  /-- `W0[7:0]` is none of the sixteen opcodes (R120 a): the sequencer answers PARAM and skips the one word. -/
  | unknownOpcode (op : Byte)
  /-- The frame's later words are missing. -/
  | truncatedFrame
  /-- A global interrupt word with none of its five source bits (R110). -/
  | noSource
  /-- A channel cause word with none of its eleven bits (R111). -/
  | noCause
  /-- A port word with neither change bit (R114). -/
  | noPortCause
  deriving DecidableEq, Repr

/-- One frame off the front of a stream of command words, and the words after it (R101, R102). -/
def decodeCmd : List Word → Except DecodeReject (Instr × List Word)
  | [] => .error .truncatedFrame
  | w0 :: rest =>
    match opOfCode (field w0 0 8) with
    | none => .error (.unknownOpcode (field w0 0 8))
    | some op =>
      match op.words, rest with
      | 1, rest => .ok (assemble op w0 0 0, rest)
      | 2, w1 :: rest => .ok (assemble op w0 w1 0, rest)
      | 3, w1 :: w2 :: rest => .ok (assemble op w0 w1 w2, rest)
      | _, _ => .error .truncatedFrame

/-! ### Interrupt, status and port words -/

/-- Keep `i` if `b`. -/
def keepIf (b : Bool) (i : Instr) : List Instr := if b then [i] else []

/-- The passes a masked global interrupt word asks for, in their order (R110, R222). -/
def decodeGint (g : Word) : List Instr :=
  keepIf (bit g 24) .gintHprtint ++ keepIf (bit g 29) .gintDiscint ++ keepIf (bit g 4) .gintRxflvl ++
    keepIf (bit g 25) .gintHcint ++ keepIf (bit g 3) .gintSof

/-- The one cause a seen word resolves to, by the priority of R190; the bits of the fall-through stand last
(R200). NYET is no branch of the chain: it is the answer only when no branch is (R195). -/
def decodeHcint (ch : ChanId) (w : Word) : Option Instr :=
  if bit w 0 then some (.hcintXfrc ch)
  else if bit w 3 then some (.hcintStall ch)
  else if bit w 4 then some (.hcintNak ch)
  else if bit w 5 then some (.hcintAck ch)
  else if bit w 7 then some (.hcintTxerr ch)
  else if bit w 8 then some (.hcintBberr ch)
  else if bit w 10 then some (.hcintDterr ch)
  else if bit w 1 then some (.hcintChh ch)
  else if bit w 6 then some (.hcintNyet ch)
  else if bit w 2 then some (.hcintRsv2 ch)
  else if bit w 9 then some (.hcintRsv9 ch)
  else none

/-- The class of a receive status word (R112, R113): total. -/
def decodeRxsts (w : Word) : Instr :=
  let chnum := chanOfBits (field w 0 4)
  let bcnt := field w 4 11
  let dpid := field w 15 2
  let pktsts := field w 17 4
  let rsv := field w 21 11
  if pktsts == 2#4 then .rxstsInData chnum bcnt dpid rsv
  else if pktsts == 3#4 then .rxstsInXferDone chnum bcnt dpid rsv
  else if pktsts == 5#4 then .rxstsToggleErr chnum bcnt dpid rsv
  else if pktsts == 7#4 then .rxstsChHalted chnum bcnt dpid rsv
  else .rxstsOther chnum bcnt dpid pktsts rsv

/-- The causes a port word shows, in the order they are served (R114, R260). -/
def decodeHprt (w : Word) : List Instr :=
  keepIf (bit w 1) .hprtPcdet ++ keepIf (bit w 3) (.hprtPenchng (bit w 2) (field w 17 2))

/-- The instruction a unit stands for: of a command stream its first frame, of a word with several bits the one that is
served first (R190, R222, R260). -/
def decode : Encoded → Except DecodeReject Instr
  | .cmd ws => (decodeCmd ws).map Prod.fst
  | .gint w => match decodeGint w with
    | i :: _ => .ok i
    | [] => .error .noSource
  | .hcint ch w => match decodeHcint ch w with
    | some i => .ok i
    | none => .error .noCause
  | .rxsts w => .ok (decodeRxsts w)
  | .hprt w => match decodeHprt w with
    | i :: _ => .ok i
    | [] => .error .noPortCause

/-! ### The encoder -/

/-- `W0` from its four bytes (R102). -/
def word0 (op : CmdOp) (a b c : Byte) : Word := c ++ b ++ a ++ op.code

/-- One bit as a field. -/
def bit1 (b : Bool) : BitVec 1 := BitVec.ofBool b

/-- A receive status word from its fields (R112). -/
def rxWord (chnum : ChanId) (bcnt : BitVec 11) (dpid : BitVec 2) (pktsts : BitVec 4) (rsv : BitVec 11) : Word :=
  rsv ++ pktsts ++ dpid ++ bcnt ++ chanBits chnum

/-- The encoded unit of an instruction, from the tables of R101, R103, R110 to R114 and R124. -/
def encode : Instr → Encoded
  | .cmdInitialize portCb epCb rsv =>
    .cmd [rsv.extractLsb' 8 14 ++ bit1 epCb ++ bit1 portCb ++ rsv.extractLsb' 0 8 ++ CmdOp.startUp.code]
  | .cmdUninitialize rsv => .cmd [rsv ++ CmdOp.shutDown.code]
  | .cmdPowerControl on rsv =>
    .cmd [rsv.extractLsb' 8 15 ++ bit1 on ++ rsv.extractLsb' 0 8 ++ CmdOp.powerControl.code]
  | .cmdPortVbus port on rsv => .cmd [rsv ++ bit1 on ++ port ++ CmdOp.portVbus.code]
  | .cmdPortReset port rsv => .cmd [rsv ++ port ++ CmdOp.portReset.code]
  | .cmdPortSuspend port rsv => .cmd [rsv ++ port ++ CmdOp.portSuspend.code]
  | .cmdPortResume port rsv => .cmd [rsv ++ port ++ CmdOp.portResume.code]
  | .cmdPortGetState port rsv => .cmd [rsv ++ port ++ CmdOp.portGetState.code]
  | .cmdGetFrameNumber rsv => .cmd [rsv ++ CmdOp.getFrameNumber.code]
  | .cmdEpCreate devAddr devSpeed epNum epDir epType mps interval rsv =>
    .cmd [word0 .epCreate (rsv.extractLsb' 0 1 ++ devAddr) (bit1 epDir ++ rsv.extractLsb' 1 3 ++ epNum)
        (rsv.extractLsb' 4 4 ++ epType ++ devSpeed),
      rsv.extractLsb' 8 8 ++ interval ++ mps]
  | .cmdEpModify handle devAddr devSpeed mps rsv =>
    .cmd [word0 .epModify handle (rsv.extractLsb' 0 1 ++ devAddr) (rsv.extractLsb' 1 6 ++ devSpeed),
      rsv.extractLsb' 7 16 ++ mps]
  | .cmdEpDelete handle rsv => .cmd [rsv ++ handle ++ CmdOp.epDelete.code]
  | .cmdEpReset handle rsv => .cmd [rsv ++ handle ++ CmdOp.epReset.code]
  | .cmdEpTransfer handle token toggle buf len rsv => .cmd [word0 .epTransfer handle (toggle ++ token) rsv, buf, len]
  | .cmdEpTransferResult handle rsv => .cmd [rsv ++ handle ++ CmdOp.epTransferResult.code]
  | .cmdEpTransferAbort handle rsv => .cmd [rsv ++ handle ++ CmdOp.epTransferAbort.code]
  | .gintHprtint => .gint (oneHot 24)
  | .gintDiscint => .gint (oneHot 29)
  | .gintRxflvl => .gint (oneHot 4)
  | .gintHcint => .gint (oneHot 25)
  | .gintSof => .gint (oneHot 3)
  | .hcintXfrc ch => .hcint ch (oneHot 0)
  | .hcintStall ch => .hcint ch (oneHot 3)
  | .hcintNak ch => .hcint ch (oneHot 4)
  | .hcintAck ch => .hcint ch (oneHot 5)
  | .hcintTxerr ch => .hcint ch (oneHot 7)
  | .hcintBberr ch => .hcint ch (oneHot 8)
  | .hcintDterr ch => .hcint ch (oneHot 10)
  | .hcintChh ch => .hcint ch (oneHot 1)
  | .hcintNyet ch => .hcint ch (oneHot 6)
  | .hcintRsv2 ch => .hcint ch (oneHot 2)
  | .hcintRsv9 ch => .hcint ch (oneHot 9)
  | .rxstsInData chnum bcnt dpid rsv => .rxsts (rxWord chnum bcnt dpid 2 rsv)
  | .rxstsInXferDone chnum bcnt dpid rsv => .rxsts (rxWord chnum bcnt dpid 3 rsv)
  | .rxstsToggleErr chnum bcnt dpid rsv => .rxsts (rxWord chnum bcnt dpid 5 rsv)
  | .rxstsChHalted chnum bcnt dpid rsv => .rxsts (rxWord chnum bcnt dpid 7 rsv)
  | .rxstsOther chnum bcnt dpid pktsts rsv => .rxsts (rxWord chnum bcnt dpid pktsts rsv)
  | .hprtPcdet => .hprt (oneHot 1)
  | .hprtPenchng pena pspd => .hprt (0#13 ++ pspd ++ 0#13 ++ 1#1 ++ bit1 pena ++ 0#2)

/-! ### The opcode table's words (log 8) -/

/-- `GINT_ALL` (R110). -/
def gintAll : Word := 0x23000018#32

/-- Which of the five kinds of word a table word of `nbits` bits is. The kind is not in the word: the formats overlap
(log 8). A whole frame word with one of the sixteen opcodes is a command; another whole word is a global interrupt word, a
cause word of channel 0 or a receive status word, whichever its bits fit; a word of 17 to 31 bits is a receive status word;
a shorter word is a cause word of channel 0. -/
def tableUnit (nbits w : Nat) : Encoded :=
  let w0 : Word := BitVec.ofNat 32 w
  let small := w0 != 0 && w0.toNat < 2 ^ 11
  match (if 32 ≤ nbits then opOfCode (field w0 0 8) else none) with
  | some op => .cmd ([w0, BitVec.ofNat 32 (w >>> 32), BitVec.ofNat 32 (w >>> 64)].take op.words)
  | none =>
    if 32 ≤ nbits && (w0 &&& gintAll) != 0 then .gint w0
    else if small && (nbits ≤ 16 || 32 ≤ nbits) then .hcint 0 w0
    else .rxsts w0

/-- The instruction the decoder reads from a row's word (log 8 names the four rows whose words another row shares). -/
def decodeTableWord (nbits w : Nat) : Option Instr :=
  match decode (tableUnit nbits w) with
  | .ok i => some i
  | .error _ => none

end Sys2Proof
end

