-- ==== Sys2Proof/Config.lean ====
section
/-! DEFINITION. What an implementation fixes (spec/00_scope.md R9) and the values the spec leaves free.
MASK_IN, MASK_OUT and MASK_HALT are the spec's parameters at its defaults; the FIFO capacities are its default, unbounded
(log 12), and so have no constant. -/

namespace Sys2Proof.Config

/-- `MASK_IN = 0x5BB`: the cause mask programmed for token IN (R9, R111). -/
def maskIn : CauseWord := 0x5BB#11

/-- `MASK_OUT = 0x0FB`: the cause mask programmed for tokens SETUP, OUT and PING (R9, R111). -/
def maskOut : CauseWord := 0x0FB#11

/-- `MASK_HALT = 0x002`: only CHH, while a halt is awaited (R9, R185). -/
def maskHalt : CauseWord := 0x002#11

/-- FREE VALUE. The `n`-th environment draw of `init_ok` or `reset_ok` (R250, R255, U3: any value) when the environment
has put no draw of its own into the state (log 5). It has no body: nothing can be proved of its value. -/
opaque freeDraw : Nat → Bool

/-- FREE VALUE. `T_RESET_PRE`, the settle time before the port-reset pulse (R9, U2). No rule reads it (log 14). -/
opaque tResetPre : Nat

/-- FREE VALUE. `T_RESET_PULSE`, the length of the port-reset pulse (R9, U2). No rule reads it (log 14). -/
opaque tResetPulse : Nat

/-- FREE VALUE. `T_RESET_POST`, the settle time after the port-reset pulse (R9, U2). No rule reads it (log 14). -/
opaque tResetPost : Nat

end Sys2Proof.Config
end

