-- ==== Sys2Proof/Machine/State.lean ====
section
/-! DEFINITION. Everything the spec gives the engine, as plain data (spec/10_state.md R20 to R53), the state after reset
(R54), and the reasons a step can stop. Enumerated fields are inductive types whose first value is the code 0; the register
images `hcchar`, `hctsiz`, `hprt` are kept by their fields, every unlisted bit being 0 (log 7). -/

namespace Sys2Proof.Machine

/-- Device speed, codes 0 to 2 (R105). -/
inductive Speed where
  | low | full | high
  deriving DecidableEq, Repr

/-- Endpoint type, codes 0 to 3 (R105). -/
inductive EpType where
  | control | isochronous | bulk | interrupt
  deriving DecidableEq, Repr

/-- `xfer.token`, codes 0 to 4 (R23, R108); `input` is the spec's IN. -/
inductive Token where
  | none | setup | out | input | ping
  deriving DecidableEq, Repr

/-- `xfer.toggle`, codes 0 to 2 (R23, R108). -/
inductive Toggle where
  | none | data0 | data1
  deriving DecidableEq, Repr

/-- A terminal event of a transfer (R109). -/
inductive EpEvent where
  | transferComplete | handshakeNyet | handshakeStall | busError
  deriving DecidableEq, Repr

/-- A port event (R109). -/
inductive PortEvent where
  | connect | disconnect | reset
  deriving DecidableEq, Repr

/-- An entry of `evq` (R50, R123): `PORT(code)` or `EP(handle, code)`. -/
inductive Event where
  | port (code : PortEvent)
  | ep (handle : Byte) (code : EpEvent)
  deriving DecidableEq, Repr

/-- An entry of `hwq` (R52). -/
inductive Strobe where
  | enable (ch : ChanId)
  | disable (ch : ChanId)
  deriving DecidableEq, Repr

/-- The Endpoint record (R22). -/
structure Endpoint where
  devAddr : BitVec 7
  speed : Speed
  num : BitVec 4
  dir : Bool
  type : EpType
  mps : BitVec 11
  reload : BitVec 16
  deriving DecidableEq, Repr

/-- The Transfer record (R23). `event = none` is the code NONE. -/
structure Transfer where
  buf : Word
  length : Word
  transferred : Word
  token : Token
  toggle : Toggle
  countdown : BitVec 16
  active : Bool
  inProgress : Bool
  event : Option EpEvent
  lastRx : BitVec 11
  deriving DecidableEq, Repr

/-- The channel characteristics and control word by its fields (R26, R115). -/
structure Hcchar where
  mpsiz : BitVec 11
  epnum : BitVec 4
  epdir : Bool
  lsdev : Bool
  eptyp : EpType
  dad : BitVec 7
  chdis : Bool
  chena : Bool
  deriving DecidableEq, Repr

/-- The transfer size word by its fields (R27, R116). -/
structure Hctsiz where
  xfrsiz : BitVec 19
  pktcnt : BitVec 10
  dpid : BitVec 2
  doping : Bool
  deriving DecidableEq, Repr

/-- The port status and control word by its fields (R38, R114). -/
structure Hprt where
  pcsts : Bool
  pcdet : Bool
  pena : Bool
  penchng : Bool
  pres : Bool
  psusp : Bool
  prst : Bool
  ppwr : Bool
  pspd : BitVec 2
  deriving DecidableEq, Repr

/-- The Port record (R37). -/
structure Port where
  connected : Bool
  speed : Speed
  portReset : Bool
  deriving DecidableEq, Repr

/-- A channel slot (R21). -/
structure Chan where
  bound : Bool
  ep : Endpoint
  xfer : Transfer
  hcchar : Hcchar
  hctsiz : Hctsiz
  hcint : CauseWord
  hcintmsk : CauseWord
  deriving DecidableEq, Repr

/-- Client memory: address and byte pairs in the canonical form of `Memory.wf` (R53, R70; log 1). -/
abbrev Memory := List Host.Cell

/-- One move of the world outside the engine, or of the engine when its environment lets it run (log 2). -/
inductive Input where
  /-- The client issues the command frames of this word stream, one after the other (R101, R102; log 9). -/
  | command (ws : List Word)
  /-- One dispatcher invocation, `IRQ` (R220). -/
  | irq
  /-- The second half of PORT_RESET (R255). -/
  | resetEnd
  /-- `LinkCause(i, bits)` (R56). -/
  | linkCause (ch : ChanId) (bits : CauseWord)
  /-- `LinkHalted(i)` (R57). -/
  | linkHalted (ch : ChanId)
  /-- `LinkRx(s, words)` (R58). -/
  | linkRx (status : Word) (words : List Word)
  /-- `LinkSof(f)` (R59). -/
  | linkSof (f : BitVec 16)
  /-- `LinkPort(pcsts, pcdet, pena, penchng, pspd)` (R60). -/
  | linkPort (pcsts pcdet pena penchng : Bool) (pspd : BitVec 2)
  /-- `LinkDisconnect()` (R61). -/
  | linkDisconnect
  /-- The link counts the size fields of a channel down (R27; log 15, log 29). -/
  | linkCount (ch : ChanId) (xfrsiz : BitVec 19) (pktcnt : BitVec 10)
  /-- The client stores a byte to its memory (R53, R86; log 17, log 28). -/
  | clientStore (addr : Word) (value : Byte)
  /-- Power-on reset of the block (R320, R321 a; log 16). -/
  | powerOnReset
  deriving DecidableEq, Repr

/-- The machine (R20). The last four fields are the model's own (log 2, 5, 6). -/
@[ext]
structure State where
  chan : Vector Chan 16
  port : Port
  hprt : Hprt
  /-- The latched bit `gintsts.SOF` (R39). -/
  sofLatch : Bool
  /-- The latched bit `gintsts.DISCINT` (R39). -/
  discLatch : Bool
  gintmsk : Word
  irqEn : Bool
  cbPort : Bool
  cbEp : Bool
  frnum : BitVec 16
  rxstsQ : List Word
  rxdatQ : List Word
  evq : List Event
  txq : Vector (List Word) 16
  hwq : List Strobe
  mem : Memory
  /-- Pending inputs, oldest first. -/
  inbox : List Input
  /-- Every word a command returned, oldest first (R104). -/
  resq : List Word
  /-- The environment's pending draws of `init_ok` and `reset_ok`, oldest first. -/
  draws : List Bool
  /-- How many free draws were taken. -/
  drawCount : Nat
  deriving DecidableEq, Repr

/-- The engine has no trap and no fatal error (R280): no step ends in a fault. -/
inductive Fault where
  deriving DecidableEq, Repr

/-- Where the spec says there is no step. Each is safe: the model stops, and claims no effect. -/
inductive Refusal where
  /-- `exec`, for an instruction that has no meaning yet. Safe. -/
  | notModelled (mnemonic : String)
  /-- The data drain: `rxdat_q` holds fewer words than the packet needs, so the link broke LINK-2 (R58, R168, U7). Safe. -/
  | rxUnderflow
  /-- The receive pass run alone on an empty status queue: `DrainRx` requires an entry (R163). Safe. -/
  | rxStatusEmpty
  /-- The sequencer: an `IRQ` input while the interrupt line is low; there is no such step (R220). Safe. -/
  | interruptLineLow
  /-- The sequencer: a client command between the two halves of PORT_RESET (R254, U13). Safe. -/
  | clientInsidePortReset
  /-- The sequencer: `ResetEnd` while the reset guard is clear; it is not enabled (R255). Safe. -/
  | noPortResetOpen
  /-- The sequencer: a halt confirmation for a channel with `CHDIS = 0`; its precondition fails (R57). Safe. -/
  | haltNotRequested
  /-- The sequencer: a size word counted up; the link may only count down (R27). Safe. -/
  | countUp
  /-- The sequencer: a command frame whose later words are missing (R102). Safe. -/
  | truncatedFrame
  deriving DecidableEq, Repr

/-- All fields 0 (R54). -/
def Endpoint.zero : Endpoint := ⟨0, .low, 0, false, .control, 0, 0⟩

/-- All fields 0 (R54). -/
def Transfer.zero : Transfer := ⟨0, 0, 0, .none, .none, 0, false, false, none, 0⟩

/-- The word 0 (R54). -/
def Hcchar.zero : Hcchar := ⟨0, 0, false, false, .control, 0, false, false⟩

/-- The word 0 (R54). -/
def Hctsiz.zero : Hctsiz := ⟨0, 0, 0, false⟩

/-- The word 0 (R54). -/
def Hprt.zero : Hprt := ⟨false, false, false, false, false, false, false, false, 0⟩

/-- Disconnected, speed code 0, guard clear (R54). -/
def Port.zero : Port := ⟨false, .low, false⟩

/-- A free slot after reset (R54). -/
def Chan.zero : Chan := ⟨false, .zero, .zero, .zero, .zero, 0, 0⟩

/-- The machine right after reset (R54, R320): everything zero, false or empty. The pending inputs, the returned words and
the environment's draws are the model's own and start empty (log 2, 5, 6); memory lists nothing (log 1). -/
def State.reset : State where
  chan := Vector.replicate 16 Chan.zero
  port := .zero
  hprt := .zero
  sofLatch := false
  discLatch := false
  gintmsk := 0
  irqEn := false
  cbPort := false
  cbEp := false
  frnum := 0
  rxstsQ := []
  rxdatQ := []
  evq := []
  txq := Vector.replicate 16 []
  hwq := []
  mem := []
  inbox := []
  resq := []
  draws := []
  drawCount := 0

end Sys2Proof.Machine
end

