-- ==== Sys2Proof/Machine/Ops.lean ====
section
/-! DEFINITION. The named operations over memory, channel slots, FIFOs, traces and results (spec/00_scope.md R11,
spec/10_state.md R44 to R53, spec/20_memory.md R70 to R79). The block has no exception (spec/60_exceptions.md R280): its
`raise` is the return of an error word, and interrupt entry and return are Machine/Interrupt.lean's `dispatcher`. -/

namespace Sys2Proof.Machine

/-- The outcome of a meaning. -/
abbrev Result := Host.Outcome State Fault Refusal

/-- All channel indices, ascending: the scan order (R226, R240). -/
def chanIds : List ChanId := [0, 1, 2, 3, 4, 5, 6, 7, 8, 9, 10, 11, 12, 13, 14, 15]

/-! ### Client memory -/

/-- What an address that memory does not list reads as (log 1). -/
def memDefault : Byte := 0#8

/-- The byte at an address. -/
def Memory.read (m : Memory) (a : Nat) : Byte :=
  match m with
  | [] => memDefault
  | c :: rest => if c.1 = a then c.2 else Memory.read rest a

/-- The cell an address needs in the list: none when the byte is what an unlisted address reads as. -/
def Memory.cell (a : Nat) (v : Byte) : Memory := if v = memDefault then [] else [(a, v)]

/-- Store a byte, keeping the list sorted and free of default bytes. -/
def Memory.write (m : Memory) (a : Nat) (v : Byte) : Memory :=
  match m with
  | [] => Memory.cell a v
  | c :: rest =>
    if a < c.1 then Memory.cell a v ++ c :: rest
    else if a = c.1 then Memory.cell a v ++ rest
    else c :: Memory.write rest a v

/-- Every listed address is above `lo`, below 2^32, rising, and lists no default byte. -/
def Memory.wfFrom (lo : Nat) (m : Memory) : Bool :=
  match m with
  | [] => true
  | c :: rest => decide (lo ≤ c.1) && decide (c.1 < 2 ^ 32) && decide (c.2 ≠ memDefault) && Memory.wfFrom (c.1 + 1) rest

/-- The canonical form: addresses of the 32-bit space (R70, R82) strictly rising, no entry equal to an unlisted byte. -/
def Memory.wf (m : Memory) : Bool := Memory.wfFrom 0 m

/-- `MemRead(addr, 1)` (R71). -/
def memRead (s : State) (a : Word) : Byte := Memory.read s.mem a.toNat

/-- `MemWrite(addr, 1, v)` (R72). -/
def memWrite (s : State) (a : Word) (v : Byte) : State := { s with mem := Memory.write s.mem a.toNat v }

/-- Store bytes at ascending addresses, modulo 2^32 (R79, R80). -/
def Memory.writeBytes (m : Memory) (a : Word) (bs : List Byte) : Memory :=
  match bs with
  | [] => m
  | b :: rest => Memory.writeBytes (Memory.write m a.toNat b) (a + 1) rest

/-! ### Words and bytes (R77) -/

/-- Byte lane `j` of a FIFO word: bits `8j + 7` to `8j`. -/
def lane (w : Word) (j : Nat) : Byte := w.extractLsb' (8 * j) 8

/-- The byte stream a list of received words carries, low byte first (R164). -/
def unpack (ws : List Word) : List Byte := ws.flatMap (fun w => [lane w 0, lane w 1, lane w 2, lane w 3])

/-- Byte `p` of an outgoing payload of `n` bytes at `a`; past the end the lane is 0 (R161). -/
def payloadByte (m : Memory) (a : Word) (n p : Nat) : Byte :=
  if p < n then Memory.read m (a + BitVec.ofNat 32 p).toNat else 0#8

/-- Word `k` of an outgoing payload (R160, R161). -/
def packWord (m : Memory) (a : Word) (n k : Nat) : Word :=
  payloadByte m a n (4 * k + 3) ++ payloadByte m a n (4 * k + 2) ++ payloadByte m a n (4 * k + 1) ++
    payloadByte m a n (4 * k)

/-- All words of an outgoing payload, in order (R160). -/
def payloadWords (m : Memory) (a : Word) (n : Nat) : List Word :=
  (List.range (ceilDiv n 4)).map (packWord m a n)

/-! ### Channel slots -/

/-- `chan[i]` (R21). -/
def State.slot (s : State) (i : ChanId) : Chan := s.chan[i]

/-- `txq[i]` (R51). -/
def State.tx (s : State) (i : ChanId) : List Word := s.txq[i]

/-- Rewrite slot `i`, and no other. -/
def State.modChan (s : State) (i : ChanId) (f : Chan → Chan) : State :=
  { s with chan := s.chan.set i (f (s.slot i)) }

/-- Rewrite every slot (by way of the list, which the kernel can evaluate). -/
def State.mapChans (s : State) (f : Chan → Chan) : State := { s with chan := ⟨⟨s.chan.toList.map f⟩, by simp⟩ }

/-- Rewrite the Transfer record of a slot. -/
def Chan.modXfer (c : Chan) (f : Transfer → Transfer) : Chan := { c with xfer := f c.xfer }

/-! ### Traces, results and draws -/

/-- `Emit(PORT, code)`: appended only if a port sink is attached (R50). -/
def State.emitPort (s : State) (code : PortEvent) : State :=
  { s with evq := if s.cbPort then s.evq ++ [.port code] else s.evq }

/-- The handle of a channel, `index + 1` (R106). -/
def handleOf (i : ChanId) : Byte := BitVec.ofNat 8 (i.val + 1)

/-- `Emit(EP, i + 1, code)`: appended only if an endpoint sink is attached (R50). -/
def State.emitEp (s : State) (i : ChanId) (code : EpEvent) : State :=
  { s with evq := if s.cbEp then s.evq ++ [.ep (handleOf i) code] else s.evq }

/-- `Strobe(ENABLE, i)` or `Strobe(DISABLE, i)` (R52). -/
def State.strobe (s : State) (x : Strobe) : State := { s with hwq := s.hwq ++ [x] }

/-- `TxPush(i, w)` for each word in turn (R51); a push always succeeds (R74; log 12). -/
def State.pushTx (s : State) (i : ChanId) (ws : List Word) : State :=
  { s with txq := s.txq.set i (s.tx i ++ ws) }

/-- `return w`: the command ends with this one word (R11, R104). -/
def State.ret (s : State) (w : Word) : State := { s with resq := s.resq ++ [w] }

/-- The environment's next draw: its own if it has put one, else a free value (R250, R255; log 5). -/
def State.drawnBit (s : State) : Bool :=
  match s.draws with
  | b :: _ => b
  | [] => Config.freeDraw s.drawCount

/-- The state once that draw is taken. -/
def State.afterDraw (s : State) : State :=
  match s.draws with
  | _ :: rest => { s with draws := rest }
  | [] => { s with drawCount := s.drawCount + 1 }

/-! ### The receive FIFO (R44, R75) -/

/-- `RxPopStatus()`: the head of `rxsts_q`, if there is one, and the state without it. -/
def State.popStatus (s : State) : Option (Word × State) :=
  match s.rxstsQ with
  | [] => none
  | w :: rest => some (w, { s with rxstsQ := rest })

/-- `n` times `RxPopWord()`; none if `rxdat_q` holds fewer than `n` words (U7). -/
def State.popWords (s : State) (n : Nat) : Option (List Word × State) :=
  if s.rxdatQ.length < n then none
  else some (s.rxdatQ.take n, { s with rxdatQ := s.rxdatQ.drop n })

end Sys2Proof.Machine
end

