-- ==== Sys2Proof/Machine/Operands.lean ====
section
/-! DEFINITION. Codes of the enumerated operands, handles, port indices, results, and the values computed from operands
(spec/30_encoding.md R104 to R109, R115 to R119, R124; spec/40_channel_table.md R143, R148, R149;
spec/45_port_controller.md R263, R265). -/

namespace Sys2Proof.Machine

/-! ### Result words (R107) -/

/-- OK. -/
def stOk : Word := 0x00000000#32
/-- INVALID, -1. -/
def stInvalid : Word := 0xFFFFFFFF#32
/-- BUSY, -2. -/
def stBusy : Word := 0xFFFFFFFE#32
/-- TIMEOUT, -3. -/
def stTimeout : Word := 0xFFFFFFFD#32
/-- PARAM, -5. -/
def stParam : Word := 0xFFFFFFFB#32
/-- The empty result: no handle, no count, no state word (R285). -/
def noResult : Word := 0#32

/-! ### Enumerations -/

/-- Speed codes; 3 is illegal (R105). -/
def speedOfCode (b : BitVec 2) : Option Speed :=
  if b == 0#2 then some .low else if b == 1#2 then some .full else if b == 2#2 then some .high else none

/-- Speed codes (R105). -/
def Speed.code : Speed → BitVec 2
  | .low => 0#2
  | .full => 1#2
  | .high => 2#2

/-- Endpoint type codes; every code is legal (R105). -/
def epTypeOfCode (b : BitVec 2) : EpType :=
  if b == 0#2 then .control else if b == 1#2 then .isochronous else if b == 2#2 then .bulk else .interrupt

/-- Endpoint type codes (R105). -/
def EpType.code : EpType → BitVec 2
  | .control => 0#2
  | .isochronous => 1#2
  | .bulk => 2#2
  | .interrupt => 3#2

/-- Token codes 1 to 4 (R108). -/
def tokenOfCode (b : BitVec 4) : Option Token :=
  if b == 1#4 then some .setup else if b == 2#4 then some .out else if b == 3#4 then some .input
  else if b == 4#4 then some .ping else none

/-- Token codes (R23, R108). -/
def Token.code : Token → BitVec 4
  | .none => 0#4
  | .setup => 1#4
  | .out => 2#4
  | .input => 3#4
  | .ping => 4#4

/-- Toggle codes 1 and 2 (R108). -/
def toggleOfCode (b : BitVec 4) : Option Toggle :=
  if b == 1#4 then some .data0 else if b == 2#4 then some .data1 else none

/-- Toggle codes (R23, R108). -/
def Toggle.code : Toggle → BitVec 4
  | .none => 0#4
  | .data0 => 1#4
  | .data1 => 2#4

/-- Event codes of an endpoint (R109). -/
def EpEvent.code : EpEvent → Byte
  | .transferComplete => 0x01#8
  | .handshakeNyet => 0x04#8
  | .handshakeStall => 0x10#8
  | .busError => 0x40#8

/-- Event codes of the port (R109). -/
def PortEvent.code : PortEvent → Byte
  | .connect => 0x01#8
  | .disconnect => 0x02#8
  | .reset => 0x08#8

/-- The byte `xfer.event` holds; NONE is 0 (R23, R109). -/
def eventCode (e : Option EpEvent) : Byte := (e.map EpEvent.code).getD 0#8

/-! ### Handles and ports -/

/-- `Ch(h)` for a handle byte 1 to 16 (R106). -/
def chanOfHandle (h : Byte) : Option ChanId :=
  if hh : 1 ≤ h.toNat ∧ h.toNat ≤ 16 then some ⟨h.toNat - 1, by omega⟩ else none

/-- `HandleOk(h)`, with the channel named: the handle is 1 to 16 and its channel is bound (R148). -/
def boundChan (s : State) (h : Byte) : Option ChanId :=
  match chanOfHandle h with
  | some i => if (s.slot i).bound then some i else none
  | none => none

/-- The one legal port index is 0 (R265). -/
def portOk (port : BitVec 8) : Bool := port == 0#8

/-! ### Computed values -/

/-- `IntervalReload(speed, interval)` (R143). -/
def intervalReload (speed : Speed) (interval : BitVec 8) : BitVec 16 :=
  match speed with
  | .high => if interval = 0#8 then 0#16 else sat 16 (2 ^ (interval.toNat - 1))
  | _ => interval.setWidth 16

/-- `ComposeHcchar(e, dir)` (R115, R149). -/
def composeHcchar (e : Endpoint) (dir : Bool) : Hcchar where
  mpsiz := e.mps
  epnum := e.num
  epdir := dir
  lsdev := e.speed == .low
  eptyp := e.type
  dad := e.devAddr
  chdis := false
  chena := false

/-- `Dpid(token, toggle)` (R117). -/
def dpidOf (token : Token) (toggle : Toggle) : BitVec 2 :=
  if token = .setup then 3#2 else if toggle = .data1 then 2#2 else 0#2

/-- `MaskFor(token)` (R184). -/
def maskFor (token : Token) : CauseWord := if token = .input then Config.maskIn else Config.maskOut

/-- The bytes a transfer still has to move, `length - transferred`, exact (R202; log 10). -/
def remaining (x : Transfer) : Nat := x.length.toNat - x.transferred.toNat

/-- The size word `Program` writes: `XFRSIZ = sat_19(rem)`, `PKTCNT = sat_10(max(1, ceil(rem / mps)))` (R116, R182,
R202). -/
def sizeWord (x : Transfer) (mps : BitVec 11) : Hctsiz where
  xfrsiz := sat 19 (remaining x)
  pktcnt := sat 10 (max 1 (ceilDiv (remaining x) mps.toNat))
  dpid := dpidOf x.token x.toggle
  doping := x.token == .ping

/-- `SpeedDecode(pspd)`: 3 gives no speed (R263). -/
def speedDecode (pspd : BitVec 2) : Option Speed :=
  if pspd == 0#2 then some .high else if pspd == 1#2 then some .full else if pspd == 2#2 then some .low else none

/-- The PORT_GET_STATE result word (R119). -/
def portStateWord (p : Port) : Word := (0#29 ++ p.speed.code) ++ BitVec.ofBool p.connected

/-! ### Register images as words (R114 to R116, R118) -/

/-- `hcchar` as the link reads it (R115). -/
def Hcchar.toWord (r : Hcchar) : Word :=
  BitVec.ofBool r.chena ++ BitVec.ofBool r.chdis ++ 0#1 ++ r.dad ++ 0#2 ++ r.eptyp.code ++ BitVec.ofBool r.lsdev ++ 0#1 ++
    BitVec.ofBool r.epdir ++ r.epnum ++ r.mpsiz

/-- `hctsiz` as the link reads it (R116). -/
def Hctsiz.toWord (r : Hctsiz) : Word := BitVec.ofBool r.doping ++ r.dpid ++ r.pktcnt ++ r.xfrsiz

/-- `hprt` (R114). -/
def Hprt.toWord (r : Hprt) : Word :=
  0#13 ++ r.pspd ++ 0#4 ++ BitVec.ofBool r.ppwr ++ 0#3 ++ BitVec.ofBool r.prst ++ BitVec.ofBool r.psusp ++
    BitVec.ofBool r.pres ++ 0#2 ++ BitVec.ofBool r.penchng ++ BitVec.ofBool r.pena ++ BitVec.ofBool r.pcdet ++
    BitVec.ofBool r.pcsts

end Sys2Proof.Machine
end

