-- ==== Sys2Proof/Machine/Flags.lean ====
section
/-! DEFINITION. The derived flags: pending bits, the global interrupt word, the interrupt line (spec/10_state.md R30, R39 to
R41) and the sequencer state of a channel (R34, R35); and the register space by its indices (spec/20_memory.md R76). -/

namespace Sys2Proof.Machine

/-- The causes of a slot the engine sees (R29, R189). -/
def Chan.seen (c : Chan) : CauseWord := c.hcint &&& c.hcintmsk

/-- `haint[i]` (R30). -/
def Chan.pending (c : Chan) : Bool := c.seen != 0#11

/-- `haint` as a word (R76). -/
def haintWord (s : State) : Word :=
  BitVec.ofNat 32 ((chanIds.map (fun i => if (s.slot i).pending then 2 ^ i.val else 0)).sum)

/-- `gintsts.HPRTINT` (R39). -/
def hprtPending (s : State) : Bool := s.hprt.pcdet || s.hprt.penchng

/-- `gintsts.RXFLVL` (R39). -/
def rxPending (s : State) : Bool := !s.rxstsQ.isEmpty

/-- `gintsts.HCINT` (R39). -/
def chanPending (s : State) : Bool := chanIds.any (fun i => (s.slot i).pending)

/-- A source's bit in its place (R110). -/
def sourceBit (on : Bool) (i : Nat) : Word := if on then oneHot i else 0#32

/-- `gintsts` (R39, R110): two latched bits, three derived ones, reserved bits 0. -/
def gintsts (s : State) : Word :=
  sourceBit s.discLatch 29 ||| sourceBit (chanPending s) 25 ||| sourceBit (hprtPending s) 24 |||
    sourceBit (rxPending s) 4 ||| sourceBit s.sofLatch 3

/-- `gintsts & gintmsk`, the dispatcher's snapshot (R221). -/
def snapshot (s : State) : Word := gintsts s &&& s.gintmsk

/-- `irq`, the one interrupt line (R41, R293). -/
def irqLine (s : State) : Bool := s.irqEn && snapshot s != 0#32

/-- The sequencer states of a channel (R34, R35); `outside` is any row the table does not have (U12). -/
inductive SeqState where
  | free | idle | abortHalting | enqueued | retryingHalt | retryingParked | completed | stalled | busError | outside
  deriving DecidableEq, Repr

/-- `SeqState(c)`, first matching row (R35). -/
def seqState (c : Chan) : SeqState :=
  if c.bound then
    match c.xfer.active, c.xfer.inProgress, c.xfer.event with
    | false, false, none => .idle
    | false, true, none => .abortHalting
    | true, true, none => if c.hcchar.chdis then .retryingHalt else .enqueued
    | true, false, none => .retryingParked
    | true, true, some .transferComplete => .completed
    | true, true, some .handshakeNyet => .completed
    | true, true, some .handshakeStall => .stalled
    | true, true, some .busError => .busError
    | _, _, _ => .outside
  else .free

/-- The register space (R76, R306). -/
inductive Reg where
  | gintsts | gintmsk | rxStatus | hprt | hfnum | haint
  | hcchar (i : ChanId)
  | hctsiz (i : ChanId)
  | hcint (i : ChanId)
  | hcintmsk (i : ChanId)
  | fifo (i : ChanId)
  deriving DecidableEq, Repr

/-- Register indices (R76). -/
def Reg.index : Reg → Nat
  | .gintsts => 0
  | .gintmsk => 1
  | .rxStatus => 2
  | .hprt => 3
  | .hfnum => 4
  | .haint => 5
  | .hcchar i => 16 + 4 * i.val
  | .hctsiz i => 17 + 4 * i.val
  | .hcint i => 18 + 4 * i.val
  | .hcintmsk i => 19 + 4 * i.val
  | .fifo i => 128 + i.val

/-- The engine's read of a register (R76): the two receive registers pop, and a read of an empty queue has no value; every
FIFO window reads the one shared data queue (R44, C4). -/
def Reg.read (r : Reg) (s : State) : Option (Word × State) :=
  match r with
  | .gintsts => some (Machine.gintsts s, s)
  | .gintmsk => some (s.gintmsk, s)
  | .rxStatus => s.popStatus
  | .hprt => some (s.hprt.toWord, s)
  | .hfnum => some (s.frnum.setWidth 32, s)
  | .haint => some (haintWord s, s)
  | .hcchar i => some ((s.slot i).hcchar.toWord, s)
  | .hctsiz i => some ((s.slot i).hctsiz.toWord, s)
  | .hcint i => some ((s.slot i).hcint.setWidth 32, s)
  | .hcintmsk i => some ((s.slot i).hcintmsk.setWidth 32, s)
  | .fifo _ => match s.popWords 1 with
    | some ([w], t) => some (w, t)
    | _ => none

end Sys2Proof.Machine
end

