-- ==== Sys2Proof/Machine/Fifo.lean ====
section
/-! DEFINITION. FIFO Transport (spec/41_fifo_transport.md): the transmit encoder `PushOut`, the receive decoder `DrainRx`, and
the meanings of the five receive-status classes. A class row runs once its status word has been popped: the pop is the
fetch of the row, and `drainRx` does it (log 11). -/

namespace Sys2Proof.Machine

/-- `PushOut(i, a, n)` (R160 to R162). -/
def pushOut (i : ChanId) (a : Word) (n : Nat) (s : State) : State :=
  s.pushTx i (payloadWords s.mem a n)

/-- Whether a data packet is admitted: bound, an active Transfer, token IN (R163, R166). -/
def Chan.admits (c : Chan) : Bool := c.bound && c.xfer.active && c.xfer.token == .input

/-- How many bytes of a packet are stored: never past `length` (R163, R167). -/
def storedBytes (x : Transfer) (bcnt : BitVec 11) : Nat := min bcnt.toNat (remaining x)

/-- The Transfer record after a packet: `transferred` advances by the stored bytes, `last_rx` takes the full count (R167,
R169). -/
def Transfer.received (x : Transfer) (bcnt : BitVec 11) : Transfer :=
  { x with
    transferred := BitVec.ofNat 32 (x.transferred.toNat + storedBytes x bcnt)
    lastRx := bcnt }

/-- An admitted packet's bytes reach memory from `buf + transferred` upward (R163, R164). -/
def storePacket (i : ChanId) (bcnt : BitVec 11) (ws : List Word) (s : State) : State :=
  let x := (s.slot i).xfer
  { s with mem := Memory.writeBytes s.mem (x.buf + x.transferred) ((unpack ws).take (storedBytes x bcnt)) }

/-- The data part of `DrainRx`: `ceil(bcnt / 4)` words are popped; an admitted packet is stored and counted, any other
dropped (R163, R166). -/
def drainData (i : ChanId) (bcnt : BitVec 11) (s : State) : Result :=
  match s.popWords (ceilDiv bcnt.toNat 4) with
  | none => .refused .rxUnderflow
  | some (ws, t) =>
    if (t.slot i).admits then
      .next ((storePacket i bcnt ws t).modChan i (fun c => c.modXfer (fun x => x.received bcnt)))
    else .next t

/-- What `DrainRx` does with a popped status word: a data packet is drained, any other code discarded (R163, R165). -/
def drainEntry (status : Word) (s : State) : Result :=
  if field status 17 4 = 2#4 then drainData (chanOfBits (field status 0 4)) (field status 4 11) s
  else .next s

/-- `DrainRx()` (R163): one entry of the receive FIFO. -/
def drainRx (s : State) : Result :=
  match s.popStatus with
  | none => .refused .rxStatusEmpty
  | some (status, t) => drainEntry status t

/-- RXSTS.IN_DATA: drain the packet (R163 to R169). DPID and the reserved bits are ignored (R112, R125). -/
def execRxstsInData (chnum : ChanId) (bcnt : BitVec 11) (s : State) : Result := drainData chnum bcnt s

/-- RXSTS.IN_XFER_DONE: discarded (R165). -/
def execRxstsInXferDone (s : State) : Result := .next s

/-- RXSTS.TOGGLE_ERR: discarded (R165). -/
def execRxstsToggleErr (s : State) : Result := .next s

/-- RXSTS.CH_HALTED: discarded (R165). -/
def execRxstsChHalted (s : State) : Result := .next s

/-- Every other receive status code: discarded (R113, R165). -/
def execRxstsOther (s : State) : Result := .next s

end Sys2Proof.Machine
end

