-- ==== Sys2Proof/Machine/Channel.lean ====
section
/-! DEFINITION. The channel transfer state machine (spec/42_channel_fsm.md): `Program`, `HaltRequest`, `Abort`, the commands
EP_TRANSFER, EP_TRANSFER_RESULT and EP_TRANSFER_ABORT, one meaning per channel cause, and `ChanService`. -/

namespace Sys2Proof.Machine

/-! ### Procedures -/

/-- The slot `Program` leaves: size fields, direction, raw causes dropped, mask by token, enabled, `in_progress` set
(R182). -/
def Chan.programmed (c : Chan) : Chan :=
  { c with
    hctsiz := sizeWord c.xfer c.ep.mps
    hcchar := { c.hcchar with epdir := c.xfer.token == .input, chdis := false, chena := true }
    hcint := 0#11
    hcintmsk := maskFor c.xfer.token
    xfer := { c.xfer with lastRx := 0#11, inProgress := true } }

/-- The slot programmed and its ENABLE strobe issued (R182). -/
def enableChan (i : ChanId) (s : State) : State := (s.modChan i Chan.programmed).strobe (.enable i)

/-- `Program(i)` (R182): the remainder of the transfer goes on hardware; an outgoing remainder is read from memory now and
pushed (R86). -/
def program (i : ChanId) (s : State) : State :=
  let x := (s.slot i).xfer
  if x.token ≠ .input ∧ 0 < remaining x then
    pushOut i (x.buf + x.transferred) (remaining x) (enableChan i s)
  else enableChan i s

/-- The slot once a halt is requested: `CHDIS` set, mask narrowed to CHH (R185). -/
def Chan.halting (c : Chan) : Chan :=
  { c with hcchar := { c.hcchar with chdis := true }, hcintmsk := Config.maskHalt }

/-- `HaltRequest(i)` (R185): one DISABLE strobe per outstanding request. -/
def haltRequest (i : ChanId) (s : State) : State :=
  if (s.slot i).hcchar.chdis then s.modChan i Chan.halting
  else (s.modChan i Chan.halting).strobe (.disable i)

/-- The Transfer destroyed: `active` and `event` cleared, the data fields kept (R32, R186). -/
def Transfer.dropped (x : Transfer) : Transfer := { x with active := false, event := none }

/-- `Abort(i)` (R186): `in_progress` is left for the CHH to clear. -/
def abort (i : ChanId) (s : State) : State :=
  (if (s.slot i).xfer.inProgress then haltRequest i s else s).modChan i (fun c => c.modXfer Transfer.dropped)

/-- An immediate re-arm: `CHENA` set and an ENABLE strobe, nothing reprogrammed (R193, R194). -/
def rearm (i : ChanId) (s : State) : State :=
  (s.modChan i (fun c => { c with hcchar := { c.hcchar with chena := true } })).strobe (.enable i)

/-- The terminal event of the transfer is determined (R180). -/
def determine (i : ChanId) (e : EpEvent) (s : State) : State :=
  s.modChan i (fun c => c.modXfer (fun x => { x with event := some e }))

/-! ### Causes -/

/-- The Transfer record after XFRC: the fix-up of `transferred`, and TRANSFER_COMPLETE unless an event is marked (R191). -/
def Transfer.completed (x : Transfer) : Transfer :=
  { x with
    transferred := if x.transferred = 0#32 then x.length else x.transferred
    event := if x.event = none then some .transferComplete else x.event }

/-- `CauseXfrc(i)` (R191). -/
def causeXfrc (i : ChanId) (s : State) : State :=
  haltRequest i (s.modChan i (fun c => c.modXfer Transfer.completed))

/-- `CauseStall(i)` (R192). -/
def causeStall (i : ChanId) (s : State) : State := haltRequest i (determine i .handshakeStall s)

/-- `CauseNak(i)` (R193): an interrupt IN is suspended, any other transfer re-armed at once. -/
def causeNak (i : ChanId) (s : State) : State :=
  if (s.slot i).xfer.token = .input ∧ (s.slot i).ep.type = .interrupt then haltRequest i s else rearm i s

/-- `CauseAck(i)` (R194): an IN transfer is re-armed after a full packet with more to come; a PING becomes an OUT. -/
def causeAck (i : ChanId) (s : State) : State :=
  let c := s.slot i
  match c.xfer.token with
  | .input =>
    if c.xfer.lastRx = c.ep.mps ∧ c.xfer.transferred.toNat < c.xfer.length.toNat then rearm i s else s
  | .ping => s.modChan i (fun c => c.modXfer (fun x => { x with token := .out }))
  | _ => s

/-- A bus-level error: BUS_ERROR, channel halted (R196 to R198). -/
def busFailure (i : ChanId) (s : State) : State := haltRequest i (determine i .busError s)

/-- `MarkNyet(i)` (R195). -/
def markNyet (i : ChanId) (s : State) : State :=
  s.modChan i (fun c => c.modXfer (fun x =>
    { x with event := if x.event = none then some .handshakeNyet else x.event }))

/-- The slot once the halt is confirmed: nothing on hardware, mask 0 (R199). -/
def Chan.released (c : Chan) : Chan :=
  { c with xfer := { c.xfer with inProgress := false }, hcintmsk := 0#11 }

/-- `CauseChh(i)` (R199): a determined event is delivered and the channel is Idle; without one an active transfer is
parked. -/
def causeChh (i : ChanId) (s : State) : State :=
  let t := s.modChan i Chan.released
  match (s.slot i).xfer.active, (s.slot i).xfer.event with
  | true, some e => (t.emitEp i e).modChan i (fun c => c.modXfer Transfer.dropped)
  | _, _ => t

/-- `FallThrough(i)` (R200). -/
def fallThrough (i : ChanId) (s : State) : State := haltRequest i s

/-- HCINT.XFRC (R191). -/
def execHcintXfrc (ch : ChanId) (s : State) : Result := .next (causeXfrc ch s)

/-- HCINT.STALL (R192). -/
def execHcintStall (ch : ChanId) (s : State) : Result := .next (causeStall ch s)

/-- HCINT.NAK (R193). -/
def execHcintNak (ch : ChanId) (s : State) : Result := .next (causeNak ch s)

/-- HCINT.ACK (R194). -/
def execHcintAck (ch : ChanId) (s : State) : Result := .next (causeAck ch s)

/-- HCINT.TXERR (R196). -/
def execHcintTxerr (ch : ChanId) (s : State) : Result := .next (busFailure ch s)

/-- HCINT.BBERR (R197). -/
def execHcintBberr (ch : ChanId) (s : State) : Result := .next (busFailure ch s)

/-- HCINT.DTERR (R198). -/
def execHcintDterr (ch : ChanId) (s : State) : Result := .next (busFailure ch s)

/-- HCINT.CHH (R199). -/
def execHcintChh (ch : ChanId) (s : State) : Result := .next (causeChh ch s)

/-- HCINT.NYET: the mark; what follows in the chain is `ChanService`'s (R189, R195). -/
def execHcintNyet (ch : ChanId) (s : State) : Result := .next (markNyet ch s)

/-- HCINT.RSV2: no named cause, the fall-through (R111, R200). -/
def execHcintRsv2 (ch : ChanId) (s : State) : Result := .next (fallThrough ch s)

/-- HCINT.RSV9: no named cause, the fall-through (R111, R200). -/
def execHcintRsv9 (ch : ChanId) (s : State) : Result := .next (fallThrough ch s)

/-- The one branch of the chain a seen word takes (R189, R190). -/
def resolveCause (i : ChanId) (w : CauseWord) (s : State) : State :=
  if w.getLsbD 0 then causeXfrc i s
  else if w.getLsbD 3 then causeStall i s
  else if w.getLsbD 4 then causeNak i s
  else if w.getLsbD 5 then causeAck i s
  else if w.getLsbD 7 then busFailure i s
  else if w.getLsbD 8 then busFailure i s
  else if w.getLsbD 10 then busFailure i s
  else if w.getLsbD 1 then causeChh i s
  else fallThrough i s

/-- The raw cause word is acknowledged whole (R189). -/
def ackCauses (i : ChanId) (s : State) : State := s.modChan i (fun c => { c with hcint := 0#11 })

/-- `ChanService(i)` (R189): requires a pending channel. -/
def chanService (i : ChanId) (s : State) : State :=
  let c := s.slot i
  let t := ackCauses i s
  if !c.xfer.inProgress then t.modChan i (fun c => { c with hcintmsk := 0#11 })
  else if !c.xfer.active then
    if c.seen.getLsbD 1 then causeChh i t else haltRequest i t
  else resolveCause i c.seen (if c.seen.getLsbD 6 then markNyet i t else t)

/-! ### Commands -/

/-- The Transfer record EP_TRANSFER writes (R181). -/
def newTransfer (buf len : Word) (token : Token) (toggle : Toggle) (reload : BitVec 16) (old : Transfer) : Transfer :=
  { old with
    buf := buf
    length := len
    transferred := 0#32
    token := token
    toggle := toggle
    countdown := reload
    event := none
    lastRx := 0#11
    active := true }

/-- The accepted body of EP_TRANSFER, the document's `enqueue` (R181). -/
def enqueue (i : ChanId) (token : Token) (toggle : Toggle) (buf len : Word) (s : State) : State :=
  program i (s.modChan i (fun c => c.modXfer (newTransfer buf len token toggle c.ep.reload)))

/-- EP_TRANSFER (R181): the checks in the order of R286, then the transfer is started. -/
def execCmdEpTransfer (handle : Byte) (token toggle : BitVec 4) (buf len : Word) (rsv : BitVec 8) (s : State) : Result :=
  if rsv ≠ 0 then .next (s.ret stParam)
  else match boundChan s handle with
  | none => .next (s.ret stParam)
  | some i => match tokenOfCode token, toggleOfCode toggle with
    | some tok, some tog =>
      if buf = 0#32 ∧ len ≠ 0#32 then .next (s.ret stParam)
      else if !s.port.connected then .next (s.ret stInvalid)
      else if (s.slot i).xfer.active || (s.slot i).xfer.inProgress then .next (s.ret stBusy)
      else .next ((enqueue i tok tog buf len s).ret stOk)
    | _, _ => .next (s.ret stParam)

/-- EP_TRANSFER_RESULT (R188). -/
def execCmdEpTransferResult (handle : Byte) (rsv : BitVec 16) (s : State) : Result :=
  if rsv ≠ 0 then .next (s.ret noResult)
  else match boundChan s handle with
  | none => .next (s.ret noResult)
  | some i => .next (s.ret (s.slot i).xfer.transferred)

/-- EP_TRANSFER_ABORT (R187). -/
def execCmdEpTransferAbort (handle : Byte) (rsv : BitVec 16) (s : State) : Result :=
  if rsv ≠ 0 then .next (s.ret stParam)
  else match boundChan s handle with
  | none => .next (s.ret stParam)
  | some i => .next ((abort i s).ret stOk)

end Sys2Proof.Machine
end

