-- ==== Sys2Proof/Machine/ChannelTable.lean ====
section
/-! DEFINITION. The Channel Table (spec/40_channel_table.md): `Allocate`, `Bind`, `Release` and the commands EP_CREATE,
EP_MODIFY, EP_DELETE, EP_RESET. -/

namespace Sys2Proof.Machine

/-- `Allocate()`: the lowest free channel (R140). -/
def allocate (s : State) : Option ChanId := chanIds.find? (fun i => !(s.slot i).bound)

/-- The slot `Bind` leaves (R141). -/
def boundTo (e : Endpoint) : Chan where
  bound := true
  ep := e
  xfer := .zero
  hcchar := composeHcchar e e.dir
  hctsiz := .zero
  hcint := 0#11
  hcintmsk := 0#11

/-- `Bind(i, e)` (R141). -/
def bindChan (i : ChanId) (e : Endpoint) (s : State) : State := s.modChan i (fun _ => boundTo e)

/-- The slot `Release` leaves: `hcchar & 0xC0000000` keeps CHENA and CHDIS, `hcint` stays (R142). -/
def Chan.freed (c : Chan) : Chan where
  bound := false
  ep := .zero
  xfer := .zero
  hcchar := { Hcchar.zero with chena := c.hcchar.chena, chdis := c.hcchar.chdis }
  hctsiz := .zero
  hcint := c.hcint
  hcintmsk := 0#11

/-- `Release(i)` (R142): every caller has aborted the channel first (log 27). -/
def release (i : ChanId) (s : State) : State := s.modChan i Chan.freed

/-- The Endpoint record EP_CREATE builds (R144). -/
def newEndpoint (devAddr : BitVec 7) (speed : Speed) (epNum : BitVec 4) (epDir : Bool) (epType : BitVec 2)
    (mps : BitVec 16) (interval : BitVec 8) : Endpoint where
  devAddr := devAddr
  speed := speed
  num := epNum
  dir := epDir
  type := epTypeOfCode epType
  mps := mps.setWidth 11
  reload := intervalReload speed interval

/-- EP_CREATE (R144): the handle of the lowest free channel, or 0. -/
def execCmdEpCreate (devAddr : BitVec 7) (devSpeed : BitVec 2) (epNum : BitVec 4) (epDir : Bool) (epType : BitVec 2)
    (mps : BitVec 16) (interval : BitVec 8) (rsv : BitVec 16) (s : State) : Result :=
  if rsv ≠ 0 then .next (s.ret noResult)
  else match speedOfCode devSpeed with
  | none => .next (s.ret noResult)
  | some speed =>
    if !mpsOk mps then .next (s.ret noResult)
    else match allocate s with
    | none => .next (s.ret noResult)
    | some i =>
      .next ((bindChan i (newEndpoint devAddr speed epNum epDir epType mps interval) s).ret
        ((handleOf i).setWidth 32))

/-- The slot EP_MODIFY leaves once aborted: address, speed and packet size, in the record and in `hcchar`; CHENA, CHDIS and
the other fields keep (R33, R145). -/
def Chan.modified (devAddr : BitVec 7) (speed : Speed) (mps : BitVec 11) (c : Chan) : Chan :=
  { c with
    ep := { c.ep with devAddr := devAddr, speed := speed, mps := mps }
    hcchar := { c.hcchar with dad := devAddr, lsdev := speed == .low, mpsiz := mps } }

/-- EP_MODIFY (R145). -/
def execCmdEpModify (handle : Byte) (devAddr : BitVec 7) (devSpeed : BitVec 2) (mps : BitVec 16) (rsv : BitVec 23)
    (s : State) : Result :=
  if rsv ≠ 0 then .next (s.ret stParam)
  else match boundChan s handle with
  | none => .next (s.ret stParam)
  | some i => match speedOfCode devSpeed with
    | none => .next (s.ret stParam)
    | some speed =>
      if !mpsOk mps then .next (s.ret stParam)
      else .next (((abort i s).modChan i (Chan.modified devAddr speed (mps.setWidth 11))).ret stOk)

/-- EP_DELETE (R146). -/
def execCmdEpDelete (handle : Byte) (rsv : BitVec 16) (s : State) : Result :=
  if rsv ≠ 0 then .next (s.ret stParam)
  else match boundChan s handle with
  | none => .next (s.ret stParam)
  | some i => .next ((release i (abort i s)).ret stOk)

/-- EP_RESET (R147): `Abort` and nothing else. -/
def execCmdEpReset (handle : Byte) (rsv : BitVec 16) (s : State) : Result :=
  if rsv ≠ 0 then .next (s.ret stParam)
  else match boundChan s handle with
  | none => .next (s.ret stParam)
  | some i => .next ((abort i s).ret stOk)

end Sys2Proof.Machine
end

