-- ==== Sys2Proof/Machine/PortControl.lean ====
section
/-! DEFINITION. The Port Controller and the engine-wide commands (spec/45_port_controller.md). -/

namespace Sys2Proof.Machine

/-! ### Engine-wide commands -/

/-- `EngineClear()` (R266): everything but the link-owned bits of `hprt`, the frame number, the receive queues, the traces
and memory goes to its reset value. -/
def engineClear (s : State) : State :=
  { s with
    chan := Vector.replicate 16 Chan.zero
    port := .zero
    hprt := { s.hprt with pres := false, psusp := false, prst := false, ppwr := false }
    sofLatch := false
    discLatch := false
    gintmsk := 0#32
    irqEn := false
    cbPort := false
    cbEp := false }

/-- The sinks attached, five sources unmasked, the interrupt enabled (R250). -/
def attach (portCb epCb : Bool) (s : State) : State :=
  { s with cbPort := portCb, cbEp := epCb, gintmsk := gintAll, irqEn := true }

/-- INITIALIZE (R250): one draw of `init_ok` decides OK or TIMEOUT (log 5). -/
def execCmdInitialize (portCb epCb : Bool) (rsv : BitVec 22) (s : State) : Result :=
  if rsv ≠ 0 then .next (s.ret stParam)
  else .next (if s.drawnBit then (attach portCb epCb (engineClear s.afterDraw)).ret stOk
    else (engineClear s.afterDraw).ret stTimeout)

/-- UNINITIALIZE (R251). -/
def execCmdUninitialize (rsv : BitVec 24) (s : State) : Result :=
  if rsv ≠ 0 then .next (s.ret stParam)
  else .next ({ s with cbPort := false, cbEp := false, gintmsk := 0#32, irqEn := false }.ret stOk)

/-- GET_FRAME_NUMBER (R259). -/
def execCmdGetFrameNumber (rsv : BitVec 24) (s : State) : Result :=
  if rsv ≠ 0 then .next (s.ret noResult)
  else .next (s.ret (s.frnum.setWidth 32))

/-! ### Power -/

/-- Vbus on, pending port and channel interrupts cleared (R252). -/
def powerUp (s : State) : State :=
  { s.mapChans (fun c => { c with hcint := 0#11 }) with
    hprt := { s.hprt with ppwr := true, pcdet := false, penchng := false } }

/-- The Vbus bit (R252, R253). -/
def setVbus (on : Bool) (s : State) : State := { s with hprt := { s.hprt with ppwr := on } }

/-- POWER_CONTROL (R252). -/
def execCmdPowerControl (on : Bool) (rsv : BitVec 23) (s : State) : Result :=
  if rsv ≠ 0 then .next (s.ret stParam)
  else .next ((if on then powerUp s else setVbus false s).ret stOk)

/-- PORT_VBUS (R253). -/
def execCmdPortVbus (port : BitVec 8) (on : Bool) (rsv : BitVec 15) (s : State) : Result :=
  if rsv ≠ 0 then .next (s.ret stParam)
  else if !portOk port then .next (s.ret stParam)
  else .next ((setVbus on s).ret stOk)

/-! ### Reset, suspend, resume -/

/-- Guard and reset signal together, set or cleared (R254, R255). -/
def driveReset (on : Bool) (s : State) : State :=
  { s with port := { s.port with portReset := on }, hprt := { s.hprt with prst := on } }

/-- PORT_RESET, first half (R254): the command does not return yet. -/
def execCmdPortReset (port : BitVec 8) (rsv : BitVec 16) (s : State) : Result :=
  if rsv ≠ 0 then .next (s.ret stParam)
  else if !portOk port then .next (s.ret stParam)
  else .next (driveReset true s)

/-- PORT_RESET, second half, `ResetEnd` (R255): one draw of `reset_ok` decides OK or TIMEOUT (log 5). -/
def resetEnd (s : State) : State :=
  (driveReset false s.afterDraw).ret (if s.drawnBit then stOk else stTimeout)

/-- PORT_SUSPEND (R256). -/
def execCmdPortSuspend (port : BitVec 8) (rsv : BitVec 16) (s : State) : Result :=
  if rsv ≠ 0 then .next (s.ret stParam)
  else if !portOk port then .next (s.ret stParam)
  else .next ({ s with hprt := { s.hprt with pres := false, psusp := true } }.ret stOk)

/-- PORT_RESUME (R257). -/
def execCmdPortResume (port : BitVec 8) (rsv : BitVec 16) (s : State) : Result :=
  if rsv ≠ 0 then .next (s.ret stParam)
  else if !portOk port then .next (s.ret stParam)
  else .next ({ s with hprt := { s.hprt with psusp := false, pres := true } }.ret stOk)

/-- PORT_GET_STATE (R258). -/
def execCmdPortGetState (port : BitVec 8) (rsv : BitVec 16) (s : State) : Result :=
  if rsv ≠ 0 then .next (s.ret noResult)
  else if !portOk port then .next (s.ret noResult)
  else .next (s.ret (portStateWord s.port))

/-! ### Port causes -/

/-- `PortConnectDetected()` (R261): acknowledged always, acted on only while the guard is clear. -/
def portConnectDetected (s : State) : State :=
  let t := { s with hprt := { s.hprt with pcdet := false } }
  if s.port.portReset then t
  else { t with port := { t.port with connected := true } }.emitPort .connect

/-- `PortEnableChanged(p)` with `p.PENA` and `p.PSPD` (R262, R263). -/
def portEnableChanged (pena : Bool) (pspd : BitVec 2) (s : State) : State :=
  let t := { s with hprt := { s.hprt with penchng := false } }
  if !s.port.portReset && pena then
    { t with port := { t.port with speed := (speedDecode pspd).getD t.port.speed } }.emitPort .reset
  else t

/-- HPRT.PCDET (R261). -/
def execHprtPcdet (s : State) : Result := .next (portConnectDetected s)

/-- HPRT.PENCHNG (R262). -/
def execHprtPenchng (pena : Bool) (pspd : BitVec 2) (s : State) : Result := .next (portEnableChanged pena pspd s)

/-- `PortService()` (R260): the port word is read once. -/
def portService (s : State) : State :=
  let p := s.hprt
  let t := if p.pcdet then portConnectDetected s else s
  if p.penchng then portEnableChanged p.pena p.pspd t else t

end Sys2Proof.Machine
end

