-- ==== Sys2Proof/Machine/Scheduler.lean ====
section
/-! DEFINITION. The periodic retry scheduler (spec/44_retry_scheduler.md). -/

namespace Sys2Proof.Machine

/-- A channel the tick looks at: bound, active, nothing on hardware (R240). -/
def Chan.parked (c : Chan) : Bool := c.bound && c.xfer.active && !c.xfer.inProgress

/-- Interrupt and isochronous endpoints (R240, R241). -/
def EpType.periodic : EpType → Bool
  | .control => false
  | .isochronous => true
  | .bulk => false
  | .interrupt => true

/-- The countdown less one, not below zero (R241). -/
def countDown (n : BitVec 16) : BitVec 16 := BitVec.ofNat 16 (n.toNat - 1)

/-- Rewrite the countdown of a slot. -/
def Chan.setCountdown (v : BitVec 16) (c : Chan) : Chan := c.modXfer (fun x => { x with countdown := v })

/-- `PeriodicTick(i)` (R241): at zero the channel is re-armed and the countdown reloaded. -/
def periodicTick (i : ChanId) (s : State) : State :=
  let n := countDown (s.slot i).xfer.countdown
  let t := s.modChan i (Chan.setCountdown n)
  if n = 0#16 then (program i t).modChan i (fun c => c.setCountdown c.ep.reload) else t

/-- What one tick does with one channel (R240 to R242). -/
def tickChan (i : ChanId) (s : State) : State :=
  if (s.slot i).parked then
    if (s.slot i).ep.type.periodic then periodicTick i s else program i s
  else s

/-- `SofTick()`: the channels in ascending order (R240). -/
def sofTick (s : State) : State := chanIds.foldl (fun t i => tickChan i t) s

end Sys2Proof.Machine
end

