-- ==== Sys2Proof/Machine/Interrupt.lean ====
section
/-! DEFINITION. The interrupt dispatcher (spec/43_interrupt_dispatcher.md): one meaning per pass, and one invocation. Taking
the interrupt reads a snapshot and saves nothing; the invocation ends after its fifth pass and restores nothing
(spec/60_exceptions.md R295, R297). -/

namespace Sys2Proof.Machine

/-- What the disconnect pass does to a slot: an active Transfer is ended, no register is touched (R224). -/
def Chan.disconnected (c : Chan) : Chan :=
  if c.bound && c.xfer.active then
    { c with xfer := { c.xfer with active := false, inProgress := false, event := none } }
  else c

/-- `DisconnectPass()` (R224). -/
def disconnectPass (s : State) : State :=
  { s.mapChans Chan.disconnected with
    discLatch := false
    port := { s.port with connected := false } }.emitPort .disconnect

/-- `gintmsk.RXFLVL` cleared (R225). -/
def maskRx (s : State) : State := { s with gintmsk := s.gintmsk &&& ~~~oneHot 4 }

/-- `gintmsk.RXFLVL` set (R225). -/
def unmaskRx (s : State) : State := { s with gintmsk := s.gintmsk ||| oneHot 4 }

/-- `RxPass()` (R225): one receive entry, drained with the receive source masked. -/
def rxPass (s : State) : Result :=
  match drainRx (maskRx s) with
  | .next t => .next (unmaskRx t)
  | .fault f => .fault f
  | .refused r => .refused r

/-- What the channel pass does at one channel: `haint[i]` is read live (R226). -/
def servicePending (i : ChanId) (s : State) : State := if (s.slot i).pending then chanService i s else s

/-- `ChannelPass()`: the channels in ascending order (R226). -/
def channelPass (s : State) : State := chanIds.foldl (fun t i => servicePending i t) s

/-- `SofPass()` (R227). -/
def sofPass (s : State) : State := sofTick { s with sofLatch := false }

/-- GINT.HPRTINT, pass 1 (R223). -/
def execGintHprtint (s : State) : Result := .next (portService s)

/-- GINT.DISCINT, pass 2 (R224). -/
def execGintDiscint (s : State) : Result := .next (disconnectPass s)

/-- GINT.RXFLVL, pass 3 (R225). -/
def execGintRxflvl (s : State) : Result := rxPass s

/-- GINT.HCINT, pass 4 (R226). -/
def execGintHcint (s : State) : Result := .next (channelPass s)

/-- GINT.SOF, pass 5 (R227). -/
def execGintSof (s : State) : Result := .next (sofPass s)

/-- A pass that runs only if its bit of the snapshot is set. -/
def passIf (b : Bool) (f : State → State) (s : State) : State := if b then f s else s

/-- `Dispatch()` (R222), without its precondition: the snapshot `g` decides the passes (R221). -/
def dispatcher (s : State) : Result :=
  let g := snapshot s
  let afterPort := passIf (bit g 24) portService s
  let afterDisc := passIf (bit g 29) disconnectPass afterPort
  match (if bit g 4 then rxPass afterDisc else .next afterDisc) with
  | .next t => .next (passIf (bit g 3) sofPass (passIf (bit g 25) channelPass t))
  | .fault f => .fault f
  | .refused r => .refused r

end Sys2Proof.Machine
end

