-- ==== Sys2Proof/Machine/Dispatch.lean ====
section
/-! DEFINITION. The meaning of every instruction: one arm per row of spec/opcode_table.json. -/

namespace Sys2Proof.Machine

def exec (i : Instr) (s : State) : Host.Outcome State Fault Refusal :=
  match i with
  -- client commands
  | .cmdInitialize portCb epCb rsv => Sys2Proof.Machine.execCmdInitialize portCb epCb rsv s
  | .cmdUninitialize rsv => Sys2Proof.Machine.execCmdUninitialize rsv s
  | .cmdPowerControl on rsv => Sys2Proof.Machine.execCmdPowerControl on rsv s
  | .cmdPortVbus port on rsv => Sys2Proof.Machine.execCmdPortVbus port on rsv s
  | .cmdPortReset port rsv => Sys2Proof.Machine.execCmdPortReset port rsv s
  | .cmdPortSuspend port rsv => Sys2Proof.Machine.execCmdPortSuspend port rsv s
  | .cmdPortResume port rsv => Sys2Proof.Machine.execCmdPortResume port rsv s
  | .cmdPortGetState port rsv => Sys2Proof.Machine.execCmdPortGetState port rsv s
  | .cmdGetFrameNumber rsv => Sys2Proof.Machine.execCmdGetFrameNumber rsv s
  | .cmdEpCreate devAddr devSpeed epNum epDir epType mps interval rsv => Sys2Proof.Machine.execCmdEpCreate devAddr devSpeed epNum epDir epType mps interval rsv s
  | .cmdEpModify handle devAddr devSpeed mps rsv => Sys2Proof.Machine.execCmdEpModify handle devAddr devSpeed mps rsv s
  | .cmdEpDelete handle rsv => Sys2Proof.Machine.execCmdEpDelete handle rsv s
  | .cmdEpReset handle rsv => Sys2Proof.Machine.execCmdEpReset handle rsv s
  | .cmdEpTransfer handle token toggle buf len rsv => Sys2Proof.Machine.execCmdEpTransfer handle token toggle buf len rsv s
  | .cmdEpTransferResult handle rsv => Sys2Proof.Machine.execCmdEpTransferResult handle rsv s
  | .cmdEpTransferAbort handle rsv => Sys2Proof.Machine.execCmdEpTransferAbort handle rsv s
  -- global interrupt sources
  | .gintHprtint => Sys2Proof.Machine.execGintHprtint s
  | .gintDiscint => Sys2Proof.Machine.execGintDiscint s
  | .gintRxflvl => Sys2Proof.Machine.execGintRxflvl s
  | .gintHcint => Sys2Proof.Machine.execGintHcint s
  | .gintSof => Sys2Proof.Machine.execGintSof s
  -- channel causes
  | .hcintXfrc ch => Sys2Proof.Machine.execHcintXfrc ch s
  | .hcintStall ch => Sys2Proof.Machine.execHcintStall ch s
  | .hcintNak ch => Sys2Proof.Machine.execHcintNak ch s
  | .hcintAck ch => Sys2Proof.Machine.execHcintAck ch s
  | .hcintTxerr ch => Sys2Proof.Machine.execHcintTxerr ch s
  | .hcintBberr ch => Sys2Proof.Machine.execHcintBberr ch s
  | .hcintDterr ch => Sys2Proof.Machine.execHcintDterr ch s
  | .hcintChh ch => Sys2Proof.Machine.execHcintChh ch s
  | .hcintNyet ch => Sys2Proof.Machine.execHcintNyet ch s
  | .hcintRsv2 ch => Sys2Proof.Machine.execHcintRsv2 ch s
  | .hcintRsv9 ch => Sys2Proof.Machine.execHcintRsv9 ch s
  -- receive-status classes
  | .rxstsInData chnum bcnt _ _ => Sys2Proof.Machine.execRxstsInData chnum bcnt s
  | .rxstsInXferDone _ _ _ _ => Sys2Proof.Machine.execRxstsInXferDone s
  | .rxstsToggleErr _ _ _ _ => Sys2Proof.Machine.execRxstsToggleErr s
  | .rxstsChHalted _ _ _ _ => Sys2Proof.Machine.execRxstsChHalted s
  | .rxstsOther _ _ _ _ _ => Sys2Proof.Machine.execRxstsOther s
  -- port causes
  | .hprtPcdet => Sys2Proof.Machine.execHprtPcdet s
  | .hprtPenchng pena pspd => Sys2Proof.Machine.execHprtPenchng pena pspd s

end Sys2Proof.Machine
end

