-- ==== Sys2Proof/Machine/Link.lean ====
section
/-! DEFINITION. What the world outside the engine may do to the state (spec/10_state.md R27, R56 to R61; spec/20_memory.md R86;
spec/70_reset_and_hazards.md R320, R321). -/

namespace Sys2Proof.Machine

/-- `LinkCause(i, bits)` (R56). -/
def linkCause (i : ChanId) (bits : CauseWord) (s : State) : State :=
  s.modChan i (fun c => { c with hcint := c.hcint ||| bits })

/-- The slot once the link confirms a halt: CHENA and CHDIS cleared, CHH raised (R57). -/
def Chan.haltConfirmed (c : Chan) : Chan :=
  { c with hcchar := { c.hcchar with chena := false, chdis := false }, hcint := c.hcint ||| 0x002#11 }

/-- `LinkHalted(i)` (R57): its precondition is `CHDIS = 1`. -/
def linkHalted (i : ChanId) (s : State) : Result :=
  if (s.slot i).hcchar.chdis then .next (s.modChan i Chan.haltConfirmed) else .refused .haltNotRequested

/-- `LinkRx(s, words)` (R58). -/
def linkRx (status : Word) (words : List Word) (s : State) : State :=
  { s with rxstsQ := s.rxstsQ ++ [status], rxdatQ := s.rxdatQ ++ words }

/-- `LinkSof(f)` (R59). -/
def linkSof (f : BitVec 16) (s : State) : State := { s with sofLatch := true, frnum := f }

/-- `LinkPort(pcsts, pcdet, pena, penchng, pspd)` (R60): the change bits are set, never cleared. -/
def linkPort (pcsts pcdet pena penchng : Bool) (pspd : BitVec 2) (s : State) : State :=
  { s with hprt := { s.hprt with
      pcsts := pcsts
      pcdet := s.hprt.pcdet || pcdet
      pena := pena
      penchng := s.hprt.penchng || penchng
      pspd := pspd } }

/-- `LinkDisconnect()` (R61). -/
def linkDisconnect (s : State) : State := { s with discLatch := true }

/-- The link counts the size fields down (R27; log 15). DESIGN CHOICE: R27 lets it do so "while it transacts"; the model asks
for no state of the slot (log 29). -/
def linkCount (i : ChanId) (xfrsiz : BitVec 19) (pktcnt : BitVec 10) (s : State) : Result :=
  if xfrsiz.toNat ≤ (s.slot i).hctsiz.xfrsiz.toNat ∧ pktcnt.toNat ≤ (s.slot i).hctsiz.pktcnt.toNat then
    .next (s.modChan i (fun c => { c with hctsiz := { c.hctsiz with xfrsiz := xfrsiz, pktcnt := pktcnt } }))
  else .refused .countUp

/-- Power-on reset (R320, R321 a; log 16): every element of engine state, link-owned bits, queues and traces included, at
its reset value; client memory is not reset, and what the environment has yet to do stays. -/
def powerOnReset (s : State) : State :=
  { State.reset with mem := s.mem, inbox := s.inbox, draws := s.draws, drawCount := s.drawCount }

end Sys2Proof.Machine
end

