-- ==== Sys2Proof/Machine/Sequencer.lean ====
section
/-! DEFINITION. What one step runs (spec/00_scope.md R7, R12; spec/60_exceptions.md R300): the oldest pending input, each an
atomic step; and how a table word is placed so that the next step runs it (log 4). -/

namespace Sys2Proof.Machine

/-- Frames left over in a word stream stay first in line (log 9). -/
def requeue (ws : List Word) (s : State) : State :=
  match ws with
  | [] => s
  | w :: rest => { s with inbox := .command (w :: rest) :: s.inbox }

/-- One client command: decoded off its stream and run; an unknown opcode is a one-word frame that returns PARAM (R120 a).
The one client is inside its call while PORT_RESET has not returned (R254, U13). -/
def clientCommand (ws : List Word) (s : State) : Result :=
  if s.port.portReset then .refused .clientInsidePortReset
  else match decodeCmd ws with
  | .ok (i, rest) => exec i (requeue rest s)
  | .error (.unknownOpcode _) => .next ((requeue ws.tail s).ret stParam)
  | .error _ => .refused .truncatedFrame

/-- One dispatcher invocation, only while the line is asserted (R220). -/
def takeInterrupt (s : State) : Result := if irqLine s then dispatcher s else .refused .interruptLineLow

/-- One input. DESIGN CHOICE: a client store is served between the two halves of PORT_RESET too; R254 shuts out the client's
commands there and says nothing of its stores (log 28). -/
def serveInput (x : Input) (s : State) : Result :=
  match x with
  | .command ws => clientCommand ws s
  | .irq => takeInterrupt s
  | .resetEnd => if s.port.portReset then .next (resetEnd s) else .refused .noPortResetOpen
  | .linkCause ch bits => .next (linkCause ch bits s)
  | .linkHalted ch => linkHalted ch s
  | .linkRx status words => .next (linkRx status words s)
  | .linkSof f => .next (linkSof f s)
  | .linkPort pcsts pcdet pena penchng pspd => .next (linkPort pcsts pcdet pena penchng pspd s)
  | .linkDisconnect => .next (linkDisconnect s)
  | .linkCount ch xfrsiz pktcnt => linkCount ch xfrsiz pktcnt s
  | .clientStore addr value => .next (memWrite s addr value)
  | .powerOnReset => .next (powerOnReset s)

/-- The next step: the oldest input; with none pending an asserted line is served and otherwise the engine is idle
(R220, R309; log 3). -/
def nextStep (s : State) : Result :=
  match s.inbox with
  | [] => if irqLine s then dispatcher s else .next s
  | x :: rest => serveInput x { s with inbox := rest }

/-! ### Placing a table word (log 4) -/

/-- Only the sources of `g` unmasked, and an invocation next in line. -/
def armInterrupt (g : Word) (s : State) : State :=
  { s with irqEn := true, gintmsk := g &&& gintAll, inbox := .irq :: s.inbox }

/-- A slot with an enqueued transfer whose only causes are those of `w`, all unmasked. -/
def Chan.withCauses (w : CauseWord) (c : Chan) : Chan :=
  { c with bound := true, hcint := w, hcintmsk := w, xfer := { c.xfer with active := true, inProgress := true } }

/-- No cause of the slot is seen. -/
def Chan.quiet (c : Chan) : Chan := { c with hcintmsk := 0#11 }

/-- The sources of `g` made pending: latched bits set; a derived source that is not pending is given the least state that
makes it so. -/
def raiseSources (g : Word) (s : State) : State :=
  let t := { s with
    sofLatch := s.sofLatch || bit g 3
    discLatch := s.discLatch || bit g 29
    hprt := if bit g 24 && !hprtPending s then { s.hprt with pcdet := true } else s.hprt
    rxstsQ := if bit g 4 && !rxPending s then [0#32] else s.rxstsQ }
  if bit g 25 && !chanPending s then t.modChan 0 (Chan.withCauses 0x002#11) else t

/-- The data words a status word promises, all zero (R58, LINK-2). -/
def promisedWords (status : Word) : List Word :=
  if field status 17 4 = 2#4 then List.replicate (ceilDiv (field status 4 11).toNat 4) 0#32 else []

/-- The state in which the very next step runs the unit `u`, and nothing else. -/
def placeUnit (u : Encoded) (s : State) : State :=
  match u with
  | .cmd ws => { s with port := { s.port with portReset := false }, inbox := .command ws :: s.inbox }
  | .gint g => armInterrupt g (raiseSources g s)
  | .hcint ch w =>
    armInterrupt (oneHot 25) ((s.mapChans Chan.quiet).modChan ch (Chan.withCauses (field w 0 11)))
  | .rxsts w =>
    armInterrupt (oneHot 4) { s with rxstsQ := w :: s.rxstsQ, rxdatQ := promisedWords w ++ s.rxdatQ }
  | .hprt w =>
    armInterrupt (oneHot 24)
      { s with hprt := { s.hprt with pcdet := bit w 1, penchng := bit w 3, pena := bit w 2, pspd := field w 17 2 } }

end Sys2Proof.Machine
end

