-- ==== Sys2Proof/Machine/Step.lean ====
section
/-! DEFINITION. One step of the machine, and the placing of a table word before it. -/

namespace Sys2Proof.Machine

/-- One atomic step (spec/00_scope.md R12, spec/60_exceptions.md R300). -/
def step (s : State) : Host.Outcome State Fault Refusal := nextStep s

/-- `s` with the table word `w` of `nbits` bits placed so that `step` runs it next (log 4, log 8). -/
def State.withFetchWord (s : State) (nbits w : Nat) : State := placeUnit (tableUnit nbits w) s

end Sys2Proof.Machine
end

