-- ==== Sys2Proof/Safety.lean ====
section
/-! DEFINITION. What holds between any two steps (spec/60_exceptions.md R310: "the whole state of 10_state.md is well defined
and satisfies the invariant of 10_state.md rule R35"). -/

namespace Sys2Proof.Machine

/-- A free slot owns nothing: no flag, no pending event, no cause unmasked (R142, R331). -/
def Chan.freeQuiet (c : Chan) : Prop :=
  c.bound = false →
    c.xfer.active = false ∧ c.xfer.inProgress = false ∧ c.xfer.event = none ∧ c.hcintmsk = 0#11

/-- The count never exceeds the requested length (R23, R202). -/
def Chan.countOk (c : Chan) : Prop := c.xfer.transferred.toNat ≤ c.xfer.length.toNat

/-- A bound endpoint has a packet size, so that `Program` divides by no zero (R22, R144). -/
def Chan.sized (c : Chan) : Prop := c.bound = true → c.ep.mps ≠ 0#11

/-- An active transfer has a token and a toggle (R181). -/
def Chan.described (c : Chan) : Prop :=
  c.xfer.active = true → c.xfer.token ≠ .none ∧ c.xfer.toggle ≠ .none

/-- The countdown starts at the reload value and only falls (R241, R244). -/
def Chan.paced (c : Chan) : Prop := c.xfer.countdown.toNat ≤ c.ep.reload.toNat

/-- A determined event other than the NYET mark has its halt requested: only CHH can still be seen (R185). -/
def Chan.settled (c : Chan) : Prop :=
  c.xfer.event = none ∨ c.xfer.event = some .handshakeNyet ∨ c.hcintmsk = Config.maskHalt

/-- A parked channel has every cause masked (R199). -/
def Chan.parkedQuiet (c : Chan) : Prop :=
  c.xfer.active = true → c.xfer.inProgress = false → c.hcintmsk = 0#11

/-- What holds of every slot. The first clause is R35: no combination outside its table. -/
structure Chan.Good (c : Chan) : Prop where
  inTable : seqState c ≠ .outside
  freeQuiet : c.freeQuiet
  countOk : c.countOk
  sized : c.sized
  described : c.described
  paced : c.paced
  settled : c.settled
  parkedQuiet : c.parkedQuiet

/-- The invariant of the machine: every slot is good; memory is canonical (R53); the reset signal is driven exactly while the
guard is set (R254, R255); the sources are unmasked exactly while the interrupt is enabled, and no sink is attached
otherwise (R250, R251). -/
structure State.Inv (s : State) : Prop where
  slots : ∀ i, (s.slot i).Good
  memory : Memory.wf s.mem = true
  guard : s.hprt.prst = s.port.portReset
  masks : s.gintmsk = if s.irqEn then gintAll else 0#32
  sinks : s.irqEn = false → s.cbPort = false ∧ s.cbEp = false

end Sys2Proof.Machine
end

