-- ==== Sys2Proof/Certificates/Slice0/Obligations.lean ====
section
/-! DEFINITION. The statements for the provers, from the numbered rules of spec/. Each names the rule it formalises; a clause that
rests on a choice of the model names the log entry. Result words, masks and bit positions are written out, so that the
statements do not borrow them from the meanings they are about. -/

open Sys2Proof Sys2Proof.Machine

namespace Sys2Proof.Claims

/-! ### Words used by the statements -/

/-- Slot `i` becomes `c` and every other slot is as before. -/
def OnlySlot (s t : State) (i : ChanId) (c : Chan) : Prop :=
  t.slot i = c ∧ ∀ j, j ≠ i → t.slot j = s.slot j

/-- Every byte of client memory reads as before. -/
def SameBytes (s t : State) : Prop := ∀ a : Word, memRead t a = memRead s a

/-- The command returned `w` and changed nothing else. -/
def answered (s : State) (w : Word) : State := { s with resq := s.resq ++ [w] }

/-- The handle byte names the bound channel `i` (R106, R148). -/
def Names (s : State) (h : Byte) (i : ChanId) : Prop := h.toNat = i.val + 1 ∧ (s.slot i).bound = true

/-- The sixteen client commands (R101). -/
def isCommand : Instr → Bool
  | .cmdInitialize _ _ _ | .cmdUninitialize _ | .cmdPowerControl _ _ | .cmdPortVbus _ _ _ | .cmdPortReset _ _
  | .cmdPortSuspend _ _ | .cmdPortResume _ _ | .cmdPortGetState _ _ | .cmdGetFrameNumber _
  | .cmdEpCreate _ _ _ _ _ _ _ _ | .cmdEpModify _ _ _ _ _ | .cmdEpDelete _ _ | .cmdEpReset _ _
  | .cmdEpTransfer _ _ _ _ _ _ | .cmdEpTransferResult _ _ | .cmdEpTransferAbort _ _ => true
  | _ => false

/-- Instructions one after the other, stopping at the first that has no next state. -/
def runList : List Instr → State → Result
  | [], s => .next s
  | i :: rest, s =>
    match exec i s with
    | .next t => runList rest t
    | .fault f => .fault f
    | .refused r => .refused r

/-- The slot after a halt request (R185): `CHDIS` set, mask CHH only. -/
def halted (c : Chan) : Chan := { c with hcchar := { c.hcchar with chdis := true }, hcintmsk := 0x002#11 }

/-- The strobes of a halt request: one, unless a request is outstanding (R185). -/
def haltStrobes (c : Chan) (i : ChanId) : List Strobe := if c.hcchar.chdis then [] else [.disable i]

/-- The slot after `Abort` (R186). -/
def afterAbort (c : Chan) : Chan :=
  { (if c.xfer.inProgress then halted c else c) with xfer := { c.xfer with active := false, event := none } }

/-- The strobes of `Abort` (R186). -/
def abortStrobes (c : Chan) (i : ChanId) : List Strobe := if c.xfer.inProgress then haltStrobes c i else []

/-- The slot after `Program` (R116, R182, R184), with the numbers written out. -/
def onHardware (c : Chan) : Chan :=
  let rem := c.xfer.length.toNat - c.xfer.transferred.toNat
  { c with
    hctsiz := {
      xfrsiz := BitVec.ofNat 19 (min rem 524287)
      pktcnt := BitVec.ofNat 10 (min (max 1 ((rem + c.ep.mps.toNat - 1) / c.ep.mps.toNat)) 1023)
      dpid := if c.xfer.token = .setup then 3#2 else if c.xfer.toggle = .data1 then 2#2 else 0#2
      doping := decide (c.xfer.token = .ping) }
    hcchar := { c.hcchar with epdir := decide (c.xfer.token = .input), chdis := false, chena := true }
    hcint := 0#11
    hcintmsk := if c.xfer.token = .input then 0x5BB#11 else 0x0FB#11
    xfer := { c.xfer with lastRx := 0#11, inProgress := true } }

/-- The words `Program` pushes: the outgoing remainder (R182). -/
def pushedBy (s : State) (c : Chan) : List Word :=
  if c.xfer.token = .input then []
  else payloadWords s.mem (c.xfer.buf + c.xfer.transferred) (c.xfer.length.toNat - c.xfer.transferred.toNat)

/-- Interrupt or isochronous (R241). -/
def isPeriodic (c : Chan) : Bool := c.ep.type == .interrupt || c.ep.type == .isochronous

/-- Parked: bound, active, nothing on hardware (R240). -/
def isParked (c : Chan) : Bool := c.bound && c.xfer.active && !c.xfer.inProgress

/-- A tick re-arms this channel (R240 to R242). -/
def isRearmed (c : Chan) : Bool := isParked c && (!isPeriodic c || decide (c.xfer.countdown.toNat ≤ 1))

/-- The slot after a tick (R240 to R242). -/
def afterTick (c : Chan) : Chan :=
  if isRearmed c then
    let d := onHardware c
    { d with xfer := { d.xfer with countdown := if isPeriodic c then c.ep.reload else c.xfer.countdown } }
  else if isParked c then { c with xfer := { c.xfer with countdown := c.xfer.countdown - 1 } }
  else c

/-- The five sources with their bits, in the order of the passes (R110, R222). -/
def passOrder : List (Nat × Instr) :=
  [(24, .gintHprtint), (29, .gintDiscint), (4, .gintRxflvl), (25, .gintHcint), (3, .gintSof)]

/-- The branches of the chain with their bits, in the order of their priority (R111, R190), the unnamed causes last (R200). -/
def causeOrder (ch : ChanId) : List (Nat × Instr) :=
  [(0, .hcintXfrc ch), (3, .hcintStall ch), (4, .hcintNak ch), (5, .hcintAck ch), (7, .hcintTxerr ch),
    (8, .hcintBberr ch), (10, .hcintDterr ch), (1, .hcintChh ch), (2, .hcintRsv2 ch), (9, .hcintRsv9 ch)]

/-- The first branch of the chain whose bit is set. -/
def firstCause (ch : ChanId) (w : CauseWord) : Option Instr :=
  ((causeOrder ch).find? (fun p => w.getLsbD p.1)).map Prod.snd

/-- The place of an event among those of one invocation (R229): CONNECT, RESET, DISCONNECT, then endpoints by handle. -/
def eventRank : Event → Nat
  | .port .connect => 0
  | .port .reset => 1
  | .port .disconnect => 2
  | .ep h _ => 2 + h.toNat

/-- The next input is not a power-on reset. -/
def notReset (s : State) : Prop := s.inbox.head? ≠ some .powerOnReset

end Sys2Proof.Claims

open Sys2Proof.Claims

/-! ## Encodings -/

/-- Frames of the encoding vectors and cause words decode as the spec says (95_test_vectors.md V-E1, V-E2, P1, R110 to R114). -/
def Obligations.SpecWordsDecode : Prop :=
  decode (.cmd [0x09810120#32, 0x00000040#32]) = .ok (.cmdEpCreate 1 1 1 true 2 64 0 0) ∧
  decode (.cmd [0x0C810120#32, 0x00030008#32]) = .ok (.cmdEpCreate 1 0 1 true 3 8 3 0) ∧
  decode (.cmd [0x00130124#32, 0x20000000#32, 0x00000080#32]) = .ok (.cmdEpTransfer 1 3 1 0x20000000 128 0) ∧
  decode (.cmd [0x00030001#32]) = .ok (.cmdInitialize true true 0) ∧
  decode (.gint 0x20000000#32) = .ok .gintDiscint ∧
  decode (.hcint 5 0x00000010#32) = .ok (.hcintNak 5) ∧
  decode (.rxsts 0x00040031#32) = .ok (.rxstsInData 1 3 0 0) ∧
  decode (.hprt 0x0002100C#32) = .ok (.hprtPenchng true 1)

/-- Decoding the encoding of a well-formed instruction gives it back, for every instruction and every operand value. -/
def Obligations.DecodeOfEncodeIsTheInstruction : Prop :=
  ∀ i : Instr, i.wf = true → decode (encode i) = .ok i

/-- A decoded frame is the encoding of the instruction it decodes to, reserved bits included, and the words after it are
left alone (R102, R103, R126). -/
def Obligations.EncodeOfDecodeIsTheFrame : Prop :=
  ∀ (ws rest : List Word) (i : Instr), decodeCmd ws = .ok (i, rest) →
    ∃ frame, encode i = .cmd frame ∧ ws = frame ++ rest

/-- The register images put each field at its place (R114, R115, R116). -/
def Obligations.RegisterImagesFollowTheirLayouts : Prop :=
  (∀ r : Hcchar,
    field r.toWord 0 11 = r.mpsiz ∧ field r.toWord 11 4 = r.epnum ∧ bit r.toWord 15 = r.epdir ∧
    bit r.toWord 16 = false ∧ bit r.toWord 17 = r.lsdev ∧ field r.toWord 18 2 = r.eptyp.code ∧
    field r.toWord 20 2 = 0#2 ∧ field r.toWord 22 7 = r.dad ∧ bit r.toWord 29 = false ∧
    bit r.toWord 30 = r.chdis ∧ bit r.toWord 31 = r.chena) ∧
  (∀ r : Hctsiz,
    field r.toWord 0 19 = r.xfrsiz ∧ field r.toWord 19 10 = r.pktcnt ∧ field r.toWord 29 2 = r.dpid ∧
    bit r.toWord 31 = r.doping) ∧
  (∀ r : Hprt,
    bit r.toWord 0 = r.pcsts ∧ bit r.toWord 1 = r.pcdet ∧ bit r.toWord 2 = r.pena ∧ bit r.toWord 3 = r.penchng ∧
    field r.toWord 4 2 = 0#2 ∧ bit r.toWord 6 = r.pres ∧ bit r.toWord 7 = r.psusp ∧ bit r.toWord 8 = r.prst ∧
    field r.toWord 9 3 = 0#3 ∧ bit r.toWord 12 = r.ppwr ∧ field r.toWord 13 4 = 0#4 ∧
    field r.toWord 17 2 = r.pspd ∧ field r.toWord 19 13 = 0#13)

/-! ## The step -/

/-- When the words at the front of the client's stream decode to an instruction, the step is exec of it, with the frame
consumed (R12, R102, R300). -/
def Obligations.StepRunsTheDecodedCommand : Prop :=
  ∀ (s : State) (ws rest : List Word) (q : List Input) (i : Instr),
    s.inbox = .command ws :: q → s.port.portReset = false → decodeCmd ws = .ok (i, rest) →
    step s = exec i { s with inbox := if rest.isEmpty then q else .command rest :: q }

/-- A frame whose opcode is none of the sixteen is one word long, returns PARAM and changes nothing (R120 a). -/
def Obligations.UnknownOpcodeReturnsParam : Prop :=
  ∀ (s : State) (w : Word) (ws : List Word) (q : List Input),
    s.inbox = .command (w :: ws) :: q → s.port.portReset = false → opOfCode (field w 0 8) = none →
    step s = .next { s with
      inbox := if ws.isEmpty then q else .command ws :: q
      resq := s.resq ++ [0xFFFFFFFB#32] }

/-- An invocation takes `gintsts & gintmsk` once and runs the passes whose bits are set, in the fixed order, each to its end,
and no more (R221, R222, R230); these are the passes the word decodes to. -/
def Obligations.InterruptStepRunsTheDecodedPasses : Prop :=
  (∀ g : Word, decodeGint g = (passOrder.filter (fun p => g.getLsbD p.1)).map Prod.snd) ∧
  ∀ (s : State) (q : List Input), s.inbox = .irq :: q → irqLine s = true →
    step s = runList ((passOrder.filter (fun p => (gintsts s &&& s.gintmsk).getLsbD p.1)).map Prod.snd)
      { s with inbox := q }

/-- The port pass runs the causes the port word decodes to (R260); the receive pass pops one status word and runs the class it
decodes to, with RXFLVL masked meanwhile (R163, R225). -/
def Obligations.PassesRunTheDecodedWords : Prop :=
  ∀ s : State,
    exec .gintHprtint s = runList (decodeHprt s.hprt.toWord) s ∧
    ∀ (w : Word) (rest : List Word), s.rxstsQ = w :: rest →
      exec .gintRxflvl s =
        match exec (decodeRxsts w) { s with rxstsQ := rest, gintmsk := s.gintmsk &&& ~~~0x00000010#32 } with
        | .next t => .next { t with gintmsk := t.gintmsk ||| 0x00000010#32 }
        | .fault f => .fault f
        | .refused r => .refused r

/-- An invocation with one pending channel whose transfer is on hardware acknowledges the whole raw word, marks a NYET
first and runs the one branch of the highest priority (R189, R190); a word without NYET decodes to that branch. -/
def Obligations.InterruptStepRunsTheResolvedCause : Prop :=
  (∀ (ch : ChanId) (w : CauseWord), w.getLsbD 6 = false → decodeHcint ch (w.setWidth 32) = firstCause ch w) ∧
  ∀ (s : State) (q : List Input) (ch : ChanId) (i : Instr),
    s.inbox = .irq :: q → s.irqEn = true → snapshot s = 0x02000000#32 →
    (∀ j, j ≠ ch → (s.slot j).pending = false) →
    (s.slot ch).xfer.inProgress = true → (s.slot ch).xfer.active = true → firstCause ch (s.slot ch).seen = some i →
    step s = runList ((if (s.slot ch).seen.getLsbD 6 then [.hcintNyet ch] else []) ++ [i])
      (({ s with inbox := q } : State).modChan ch (fun c => { c with hcint := 0#11 }))

/-- What a service does when no cause is to be resolved (R189, R201): with nothing on hardware the word and the mask are
cleared; an aborted transfer ends at CHH and asks for the halt again otherwise; NYET alone marks and falls through (R195,
R200). -/
def Obligations.ServiceWithoutAResolvedCause : Prop :=
  ∀ (s : State) (i : ChanId),
    ((s.slot i).xfer.inProgress = false →
      OnlySlot s (chanService i s) i { s.slot i with hcint := 0#11, hcintmsk := 0#11 } ∧
      chanService i s = { s with chan := (chanService i s).chan }) ∧
    ((s.slot i).xfer.inProgress = true → (s.slot i).xfer.active = false → (s.slot i).seen.getLsbD 1 = true →
      OnlySlot s (chanService i s) i
        { s.slot i with hcint := 0#11, hcintmsk := 0#11, xfer := { (s.slot i).xfer with inProgress := false } } ∧
      chanService i s = { s with chan := (chanService i s).chan }) ∧
    ((s.slot i).xfer.inProgress = true → (s.slot i).xfer.active = false → (s.slot i).seen.getLsbD 1 = false →
      OnlySlot s (chanService i s) i { halted (s.slot i) with hcint := 0#11 } ∧
      chanService i s = { s with
        chan := (chanService i s).chan
        hwq := s.hwq ++ haltStrobes (s.slot i) i }) ∧
    ((s.slot i).xfer.inProgress = true → (s.slot i).xfer.active = true → (s.slot i).seen = 0x040#11 →
      OnlySlot s (chanService i s) i { halted (s.slot i) with
        hcint := 0#11
        xfer := { (s.slot i).xfer with event := some ((s.slot i).xfer.event.getD .handshakeNyet) } } ∧
      chanService i s = { s with
        chan := (chanService i s).chan
        hwq := s.hwq ++ haltStrobes (s.slot i) i })

/-- `irq` is the enable and some unmasked pending source (R30, R39, R41, R110). -/
def Obligations.InterruptLineIsAnUnmaskedPendingSource : Prop :=
  ∀ s : State, irqLine s = true ↔
    s.irqEn = true ∧
      ((s.discLatch = true ∧ s.gintmsk.getLsbD 29 = true) ∨
        ((∃ i, (s.slot i).hcint &&& (s.slot i).hcintmsk ≠ 0#11) ∧ s.gintmsk.getLsbD 25 = true) ∨
        ((s.hprt.pcdet = true ∨ s.hprt.penchng = true) ∧ s.gintmsk.getLsbD 24 = true) ∨
        (s.rxstsQ ≠ [] ∧ s.gintmsk.getLsbD 4 = true) ∨
        (s.sofLatch = true ∧ s.gintmsk.getLsbD 3 = true))

/-- Steps the spec does not give are refused by name: an invocation with the line low (R220), a client command inside
PORT_RESET (R254, U13), ResetEnd with the guard clear (R255), a halt confirmation with `CHDIS = 0` (R57). -/
def Obligations.DisabledInputsAreRefused : Prop :=
  (∀ (s : State) (q : List Input), s.inbox = .irq :: q → irqLine s = false →
    step s = .refused .interruptLineLow) ∧
  (∀ (s : State) (ws : List Word) (q : List Input), s.inbox = .command ws :: q → s.port.portReset = true →
    step s = .refused .clientInsidePortReset) ∧
  (∀ (s : State) (q : List Input), s.inbox = .resetEnd :: q → s.port.portReset = false →
    step s = .refused .noPortResetOpen) ∧
  (∀ (s : State) (ch : ChanId) (q : List Input), s.inbox = .linkHalted ch :: q → (s.slot ch).hcchar.chdis = false →
    step s = .refused .haltNotRequested)

/-! ## The link's and the client's moves -/

/-- `LinkCause` sets bits of one raw word; `LinkHalted`, when a halt is requested, clears CHENA and CHDIS and raises CHH
(R56, R57). -/
def Obligations.LinkCausesAndHaltConfirmations : Prop :=
  (∀ (s : State) (ch : ChanId) (bits : CauseWord) (q : List Input), s.inbox = .linkCause ch bits :: q →
    ∃ t, step s = .next t ∧ OnlySlot s t ch { s.slot ch with hcint := (s.slot ch).hcint ||| bits } ∧
      t = { s with chan := t.chan, inbox := q }) ∧
  (∀ (s : State) (ch : ChanId) (q : List Input), s.inbox = .linkHalted ch :: q → (s.slot ch).hcchar.chdis = true →
    ∃ t, step s = .next t ∧
      OnlySlot s t ch { s.slot ch with
        hcchar := { (s.slot ch).hcchar with chena := false, chdis := false }
        hcint := (s.slot ch).hcint ||| 0x002#11 } ∧
      t = { s with chan := t.chan, inbox := q })

/-- `LinkRx`, `LinkSof`, `LinkPort` and `LinkDisconnect` (R58 to R61): the link's words are written, change bits are set and
never cleared. -/
def Obligations.LinkQueuesFramesAndPort : Prop :=
  ∀ (s : State) (q : List Input),
    (∀ st ws, s.inbox = .linkRx st ws :: q →
      step s = .next { s with inbox := q, rxstsQ := s.rxstsQ ++ [st], rxdatQ := s.rxdatQ ++ ws }) ∧
    (∀ f, s.inbox = .linkSof f :: q → step s = .next { s with inbox := q, sofLatch := true, frnum := f }) ∧
    (∀ a b c d e, s.inbox = .linkPort a b c d e :: q →
      step s = .next { s with inbox := q, hprt := { s.hprt with
        pcsts := a, pcdet := s.hprt.pcdet || b, pena := c, penchng := s.hprt.penchng || d, pspd := e } }) ∧
    (s.inbox = .linkDisconnect :: q → step s = .next { s with inbox := q, discLatch := true })

/-- The link counts the size fields of one channel down, in any state of the slot, and in no step up (R27; that the link does
so by an input, the refusal, and that the slot's state is not asked for, are the model's: log 15, log 29). -/
def Obligations.LinkCountsSizeWordsDown : Prop :=
  ∀ (s : State) (ch : ChanId) (xfrsiz : BitVec 19) (pktcnt : BitVec 10) (q : List Input),
    s.inbox = .linkCount ch xfrsiz pktcnt :: q →
    (xfrsiz.toNat ≤ (s.slot ch).hctsiz.xfrsiz.toNat → pktcnt.toNat ≤ (s.slot ch).hctsiz.pktcnt.toNat →
      ∃ t, step s = .next t ∧
        OnlySlot s t ch { s.slot ch with
          hctsiz := { (s.slot ch).hctsiz with
            xfrsiz := xfrsiz
            pktcnt := pktcnt } } ∧
        t = { s with chan := t.chan, inbox := q }) ∧
    (((s.slot ch).hctsiz.xfrsiz.toNat < xfrsiz.toNat ∨ (s.slot ch).hctsiz.pktcnt.toNat < pktcnt.toNat) →
      step s = .refused .countUp)

/-- A client store is one `MemWrite`: the byte is read back and every other byte is as before (R71, R72). That the store is an
input is the model's (log 17). The statement has no premise on the reset guard, so it also says that a store between the two
halves of PORT_RESET is served: the spec is silent there and that clause is the model's choice (log 28). -/
def Obligations.ClientStoreWritesOneByte : Prop :=
  ∀ (s : State) (a : Word) (v : Byte) (q : List Input),
    s.inbox = .clientStore a v :: q → Memory.wf s.mem = true →
    ∃ t, step s = .next t ∧ (∀ b, memRead t b = if b = a then v else memRead s b) ∧
      Memory.wf t.mem = true ∧ t = { s with mem := t.mem, inbox := q }

/-! ## Reset and invariants -/

/-- Reset values (R54): free channels, zero records and words, nothing latched, queued or traced, no sink, the line low. -/
def Obligations.ResetStateIsZero : Prop :=
  (∀ i, State.reset.slot i =
    { bound := false
      ep := ⟨0, .low, 0, false, .control, 0, 0⟩
      xfer := ⟨0, 0, 0, .none, .none, 0, false, false, none, 0⟩
      hcchar := ⟨0, 0, false, false, .control, 0, false, false⟩
      hctsiz := ⟨0, 0, 0, false⟩
      hcint := 0
      hcintmsk := 0 }) ∧
  (∀ i, State.reset.tx i = []) ∧
  State.reset.port = ⟨false, .low, false⟩ ∧ State.reset.hprt.toWord = 0#32 ∧ gintsts State.reset = 0#32 ∧
  State.reset.gintmsk = 0#32 ∧ State.reset.irqEn = false ∧ State.reset.cbPort = false ∧ State.reset.cbEp = false ∧
  State.reset.frnum = 0#16 ∧ State.reset.rxstsQ = [] ∧ State.reset.rxdatQ = [] ∧ State.reset.evq = [] ∧
  State.reset.hwq = [] ∧ irqLine State.reset = false

/-- A power-on reset puts every element of engine state, link-owned bits, queues and traces included, at the value of R54's
table and keeps client memory (R320, R321 a). That it is an input, that the moves and draws the environment has pending stay,
and that the trace of returned words starts anew, are the model's (log 16). -/
def Obligations.PowerOnResetRestoresTheTable : Prop :=
  ∀ (s : State) (q : List Input), s.inbox = .powerOnReset :: q →
    ∃ t, step s = .next t ∧
      (∀ i, t.slot i =
        { bound := false
          ep := ⟨0, .low, 0, false, .control, 0, 0⟩
          xfer := ⟨0, 0, 0, .none, .none, 0, false, false, none, 0⟩
          hcchar := ⟨0, 0, false, false, .control, 0, false, false⟩
          hctsiz := ⟨0, 0, 0, false⟩
          hcint := 0
          hcintmsk := 0 }) ∧
      (∀ i, t.tx i = []) ∧
      SameBytes s t ∧
      t = { s with
        chan := t.chan
        port := ⟨false, .low, false⟩
        hprt := ⟨false, false, false, false, false, false, false, false, 0⟩
        sofLatch := false
        discLatch := false
        gintmsk := 0#32
        irqEn := false
        cbPort := false
        cbEp := false
        frnum := 0#16
        rxstsQ := []
        rxdatQ := []
        evq := []
        txq := t.txq
        hwq := []
        inbox := q
        resq := [] }

/-- The invariant holds at reset. -/
def Obligations.ResetMeetsTheInvariant : Prop := State.reset.Inv

/-- Every step keeps the invariant (R310, R35, R24): no slot leaves the table of sequencer states, counts stay within their
length, memory stays canonical, the reset signal follows the guard, the masks follow the enable. -/
def Obligations.StepKeepsTheInvariant : Prop :=
  ∀ s t : State, s.Inv → step s = .next t → t.Inv

/-- The traces are append-only (R3, R50 to R52): short of a power-on reset a step only adds to them. -/
def Obligations.StepOnlyAddsToTheTraces : Prop :=
  ∀ s t : State, notReset s → step s = .next t →
    s.evq <+: t.evq ∧ s.hwq <+: t.hwq ∧ s.resq <+: t.resq ∧ ∀ i, s.tx i <+: t.tx i

/-- Nothing is served before INITIALIZE (R322): with the enable and every mask bit clear, a step that is neither a client
command nor a power-on reset leaves them clear, emits no event, issues no strobe and touches no transfer record. -/
def Obligations.NothingIsServedBeforeStartUp : Prop :=
  ∀ s t : State, s.irqEn = false → s.gintmsk = 0#32 → (∀ ws, s.inbox.head? ≠ some (.command ws)) → notReset s →
    step s = .next t →
    t.irqEn = false ∧ t.gintmsk = 0#32 ∧ t.evq = s.evq ∧ t.hwq = s.hwq ∧ (∀ i, (t.slot i).xfer = (s.slot i).xfer)

/-! ## Rules about all instructions -/

/-- Every client command has a next state and emits no event (R301). -/
def Obligations.CommandsEmitNoEvent : Prop :=
  ∀ (i : Instr) (s : State), isCommand i = true → ∃ t, exec i s = .next t ∧ t.evq = s.evq

/-- A command that returns PARAM, INVALID or BUSY has changed nothing but the trace of returned words (R280, R281, R282, R283;
log 6). -/
def Obligations.ErrorReturnsChangeNothing : Prop :=
  ∀ (i : Instr) (s t : State) (w : Word), isCommand i = true → exec i s = .next t → t.resq = s.resq ++ [w] →
    (w = 0xFFFFFFFB#32 ∨ w = 0xFFFFFFFF#32 ∨ w = 0xFFFFFFFE#32) → t = answered s w

/-- No instruction sets a bit of a channel's raw cause word (R28, R298). -/
def Obligations.EngineNeverRaisesACause : Prop :=
  ∀ (i : Instr) (s t : State), exec i s = .next t → ∀ c, (t.slot c).hcint &&& ~~~(s.slot c).hcint = 0#11

/-- An instruction that changes a toggle is EP_TRANSFER, or it leaves the whole record zero (R205). -/
def Obligations.ToggleIsWrittenOnlyByTransfers : Prop :=
  ∀ (i : Instr) (s t : State), exec i s = .next t → ∀ c, (t.slot c).xfer.toggle ≠ (s.slot c).xfer.toggle →
    (∃ h tok tog buf len rsv, i = .cmdEpTransfer h tok tog buf len rsv) ∨ (t.slot c).xfer = Transfer.zero

/-- Endpoint records are immutable but for EP_MODIFY, which rewrites address, speed and packet size; number, direction, type
and reload change only when the channel is bound anew or freed (R33). -/
def Obligations.EndpointIdentityIsImmutable : Prop :=
  ∀ (i : Instr) (s t : State), exec i s = .next t → ∀ c, (s.slot c).bound = true → (t.slot c).bound = true →
    ((t.slot c).ep.num = (s.slot c).ep.num ∧ (t.slot c).ep.dir = (s.slot c).ep.dir ∧
      (t.slot c).ep.type = (s.slot c).ep.type ∧ (t.slot c).ep.reload = (s.slot c).ep.reload) ∧
    ((∀ h devAddr devSpeed mps rsv, i ≠ .cmdEpModify h devAddr devSpeed mps rsv) → (t.slot c).ep = (s.slot c).ep)

/-- Only the receive path writes client memory: every other instruction leaves every byte as it was (R72, R73). -/
def Obligations.OnlyTheReceivePathWritesMemory : Prop :=
  ∀ (i : Instr) (s t : State), exec i s = .next t → i ≠ .gintRxflvl →
    (∀ ch bcnt dpid rsv, i ≠ .rxstsInData ch bcnt dpid rsv) → SameBytes s t

/-- The events of one invocation come in the order CONNECT, RESET, DISCONNECT, endpoints by ascending channel, each at most
once, so at most one event per channel per invocation (R203, R226, R229); the receive and start-of-frame passes emit none. -/
def Obligations.InvocationEventsAreOrdered : Prop :=
  (∀ s t : State, exec .gintRxflvl s = .next t ∨ exec .gintSof s = .next t → t.evq = s.evq) ∧
  ∀ (s t : State) (q : List Input), s.inbox = .irq :: q → step s = .next t →
    ∃ es, t.evq = s.evq ++ es ∧ (es.map eventRank).Pairwise (· < ·)

/-! ## Engine-wide and port commands -/

/-- INITIALIZE (R250, R266): a reserved bit returns PARAM; otherwise the engine is cleared and the environment's draw decides
between attached and OK, or detached and TIMEOUT. Which draw is taken is the model's (log 5). -/
def Obligations.StartUpClearsAndAttaches : Prop :=
  ∀ (portCb epCb : Bool) (rsv : BitVec 22) (s : State),
    (rsv ≠ 0 → exec (.cmdInitialize portCb epCb rsv) s = .next (answered s 0xFFFFFFFB#32)) ∧
    (rsv = 0 → ∃ t, exec (.cmdInitialize portCb epCb rsv) s = .next t ∧
      (∀ i, t.slot i = Chan.zero) ∧ t.port = ⟨false, .low, false⟩ ∧
      t.hprt = { s.hprt with prst := false, ppwr := false, psusp := false, pres := false } ∧
      t.sofLatch = false ∧ t.discLatch = false ∧
      (s.drawnBit = true →
        t.gintmsk = 0x23000018#32 ∧ t.irqEn = true ∧ t.cbPort = portCb ∧ t.cbEp = epCb ∧
          t.resq = s.resq ++ [0x00000000#32]) ∧
      (s.drawnBit = false →
        t.gintmsk = 0#32 ∧ t.irqEn = false ∧ t.cbPort = false ∧ t.cbEp = false ∧
          t.resq = s.resq ++ [0xFFFFFFFD#32]) ∧
      SameBytes s t ∧
      t = { s with
        chan := t.chan
        port := t.port
        hprt := t.hprt
        sofLatch := t.sofLatch
        discLatch := t.discLatch
        gintmsk := t.gintmsk
        irqEn := t.irqEn
        cbPort := t.cbPort
        cbEp := t.cbEp
        resq := t.resq
        draws := t.draws
        drawCount := t.drawCount })

/-- UNINITIALIZE (R251): sinks detached, every source masked, the enable cleared; nothing else. -/
def Obligations.ShutDownDetachesAndMasks : Prop :=
  ∀ (rsv : BitVec 24) (s : State),
    exec (.cmdUninitialize rsv) s = .next (
      if rsv = 0 then
        { s with cbPort := false, cbEp := false, gintmsk := 0#32, irqEn := false, resq := s.resq ++ [0#32] }
      else answered s 0xFFFFFFFB#32)

/-- POWER_CONTROL (R252): on sets Vbus and clears the pending port and channel causes; off clears Vbus and touches no
channel. -/
def Obligations.PowerControlClearsPendingCausesWhenOn : Prop :=
  ∀ (on : Bool) (rsv : BitVec 23) (s : State),
    (rsv ≠ 0 → exec (.cmdPowerControl on rsv) s = .next (answered s 0xFFFFFFFB#32)) ∧
    (rsv = 0 → ∃ t, exec (.cmdPowerControl on rsv) s = .next t ∧
      (∀ i, t.slot i = if on then { s.slot i with hcint := 0#11 } else s.slot i) ∧
      t.hprt = (if on then { s.hprt with ppwr := true, pcdet := false, penchng := false }
        else { s.hprt with ppwr := false }) ∧
      SameBytes s t ∧
      t = { s with chan := t.chan, hprt := t.hprt, resq := s.resq ++ [0#32] })

/-- PORT_VBUS, PORT_SUSPEND and PORT_RESUME (R253, R256, R257, R265): a reserved bit or a port index other than 0 returns
PARAM and changes nothing; otherwise the named bits of `hprt` and nothing else. -/
def Obligations.PortBitCommandsWriteTheirBits : Prop :=
  (∀ (port : BitVec 8) (on : Bool) (rsv : BitVec 15) (s : State),
    exec (.cmdPortVbus port on rsv) s = .next (
      if rsv = 0 ∧ port = 0 then { answered s 0#32 with hprt := { s.hprt with ppwr := on } }
      else answered s 0xFFFFFFFB#32)) ∧
  (∀ (port : BitVec 8) (rsv : BitVec 16) (s : State),
    exec (.cmdPortSuspend port rsv) s = .next (
      if rsv = 0 ∧ port = 0 then { answered s 0#32 with hprt := { s.hprt with pres := false, psusp := true } }
      else answered s 0xFFFFFFFB#32) ∧
    exec (.cmdPortResume port rsv) s = .next (
      if rsv = 0 ∧ port = 0 then { answered s 0#32 with hprt := { s.hprt with psusp := false, pres := true } }
      else answered s 0xFFFFFFFB#32))

/-- PORT_RESET, first half (R254): guard and reset signal set in one step, no result yet; PARAM at once for a bad frame or
port. -/
def Obligations.PortResetSetsGuardAndSignal : Prop :=
  ∀ (port : BitVec 8) (rsv : BitVec 16) (s : State),
    exec (.cmdPortReset port rsv) s = .next (
      if rsv = 0 ∧ port = 0 then
        { s with port := { s.port with portReset := true }, hprt := { s.hprt with prst := true } }
      else answered s 0xFFFFFFFB#32)

/-- PORT_RESET, second half (R255): guard and signal cleared; the environment's draw decides OK or TIMEOUT and nothing
else depends on it. Which draw is taken is the model's (log 5). -/
def Obligations.ResetEndClearsGuardAndSignal : Prop :=
  ∀ (s : State) (q : List Input), s.inbox = .resetEnd :: q → s.port.portReset = true →
    ∃ t, step s = .next t ∧ t.port = { s.port with portReset := false } ∧ t.hprt = { s.hprt with prst := false } ∧
      t.resq = s.resq ++ [if s.drawnBit then 0#32 else 0xFFFFFFFD#32] ∧
      t = { s with
        port := t.port
        hprt := t.hprt
        resq := t.resq
        inbox := q
        draws := t.draws
        drawCount := t.drawCount }

/-- PORT_GET_STATE and GET_FRAME_NUMBER (R119, R258, R259, R265): they write nothing; the state word holds `connected` in bit 0 and
the speed code in bits 2:1. -/
def Obligations.PortStateAndFrameNumberAreReturned : Prop :=
  (∀ (port : BitVec 8) (rsv : BitVec 16) (s : State),
    exec (.cmdPortGetState port rsv) s = .next (answered s (
      if rsv = 0 ∧ port = 0 then BitVec.ofNat 32 ((if s.port.connected then 1 else 0) + 2 * s.port.speed.code.toNat)
      else 0#32))) ∧
  (∀ (rsv : BitVec 24) (s : State),
    exec (.cmdGetFrameNumber rsv) s = .next (answered s (
      if rsv = 0 then BitVec.ofNat 32 s.frnum.toNat else 0#32)))

/-! ## Channel table -/

/-- EP_CREATE (R106, R140, R141, R144): for a reserved bit, speed 3, a packet size of 0 or above 2047, or a full table it
returns 0 and changes nothing; otherwise it binds the lowest free channel and returns its index plus one. -/
def Obligations.CreateBindsTheLowestFreeChannel : Prop :=
  (∀ devAddr devSpeed epNum epDir epType mps interval (rsv : BitVec 16) (s : State),
    (rsv ≠ 0 ∨ devSpeed = 3#2 ∨ mps.toNat = 0 ∨ 2047 < mps.toNat ∨ (∀ i, (s.slot i).bound = true)) →
    exec (.cmdEpCreate devAddr devSpeed epNum epDir epType mps interval rsv) s = .next (answered s 0#32)) ∧
  ∀ devAddr devSpeed epNum epDir epType mps interval (rsv : BitVec 16) (s : State) (i : ChanId),
    rsv = 0 → devSpeed ≠ 3#2 → 1 ≤ mps.toNat → mps.toNat ≤ 2047 →
    (s.slot i).bound = false → (∀ j, j < i → (s.slot j).bound = true) →
    ∃ t speed type, exec (.cmdEpCreate devAddr devSpeed epNum epDir epType mps interval rsv) s = .next t ∧
      speed.code = devSpeed ∧ type.code = epType ∧
      OnlySlot s t i
        { bound := true
          ep := ⟨devAddr, speed, epNum, epDir, type, BitVec.ofNat 11 mps.toNat, intervalReload speed interval⟩
          xfer := Transfer.zero
          hcchar := ⟨BitVec.ofNat 11 mps.toNat, epNum, epDir, decide (speed = .low), type, devAddr, false, false⟩
          hctsiz := Hctsiz.zero
          hcint := 0#11
          hcintmsk := 0#11 } ∧
      SameBytes s t ∧
      t = { s with chan := t.chan, resq := s.resq ++ [BitVec.ofNat 32 (i.val + 1)] }

/-- `IntervalReload` (R143): the raw interval for low and full speed; for high speed `2^(interval - 1)`, 0 at interval 0 and
65535 from 17 on. -/
def Obligations.IntervalReloadFollowsSpeed : Prop :=
  ∀ (speed : Speed) (interval : BitVec 8),
    (intervalReload speed interval).toNat =
      if speed = .high then
        (if interval.toNat = 0 then 0
         else if interval.toNat ≤ 16 then 2 ^ (interval.toNat - 1) else 65535)
      else interval.toNat

/-- EP_MODIFY (R145): PARAM with nothing changed for a reserved bit, a bad handle, speed 3 or a packet size out of range;
otherwise it aborts first, then writes address, speed and packet size in the record and in `hcchar`; CHENA, the halt request
and every other field keep. -/
def Obligations.ModifyAbortsThenRewrites : Prop :=
  (∀ (h : Byte) devAddr devSpeed mps (rsv : BitVec 23) (s : State),
    (rsv ≠ 0 ∨ (∀ i, ¬ Names s h i) ∨ devSpeed = 3#2 ∨ mps.toNat = 0 ∨ 2047 < mps.toNat) →
    exec (.cmdEpModify h devAddr devSpeed mps rsv) s = .next (answered s 0xFFFFFFFB#32)) ∧
  ∀ (h : Byte) devAddr devSpeed mps (rsv : BitVec 23) (s : State) (i : ChanId),
    rsv = 0 → Names s h i → devSpeed ≠ 3#2 → 1 ≤ mps.toNat → mps.toNat ≤ 2047 →
    ∃ t speed, exec (.cmdEpModify h devAddr devSpeed mps rsv) s = .next t ∧ speed.code = devSpeed ∧
      OnlySlot s t i { afterAbort (s.slot i) with
        ep := { (s.slot i).ep with devAddr := devAddr, speed := speed, mps := BitVec.ofNat 11 mps.toNat }
        hcchar := { (afterAbort (s.slot i)).hcchar with
          dad := devAddr
          lsdev := decide (speed = .low)
          mpsiz := BitVec.ofNat 11 mps.toNat } } ∧
      SameBytes s t ∧
      t = { s with
        chan := t.chan
        hwq := s.hwq ++ abortStrobes (s.slot i) i
        resq := s.resq ++ [0#32] }

/-- EP_DELETE, EP_RESET and EP_TRANSFER_ABORT (R142, R146, R147, R186, R187): PARAM with nothing changed for a reserved bit
or a handle that names no bound channel; otherwise all abort, and EP_DELETE also frees the slot, keeping CHENA, CHDIS and the
raw causes. -/
def Obligations.DeleteResetAndAbortStopTheChannel : Prop :=
  (∀ (h : Byte) (rsv : BitVec 16) (s : State), (rsv ≠ 0 ∨ ∀ i, ¬ Names s h i) →
    exec (.cmdEpDelete h rsv) s = .next (answered s 0xFFFFFFFB#32) ∧
    exec (.cmdEpReset h rsv) s = .next (answered s 0xFFFFFFFB#32) ∧
    exec (.cmdEpTransferAbort h rsv) s = .next (answered s 0xFFFFFFFB#32)) ∧
  ∀ (h : Byte) (rsv : BitVec 16) (s : State) (i : ChanId), rsv = 0 → Names s h i →
    (∃ t, exec (.cmdEpDelete h rsv) s = .next t ∧
      OnlySlot s t i
        { bound := false
          ep := Endpoint.zero
          xfer := Transfer.zero
          hcchar := ⟨0, 0, false, false, .control, 0, (afterAbort (s.slot i)).hcchar.chdis, (s.slot i).hcchar.chena⟩
          hctsiz := Hctsiz.zero
          hcint := (s.slot i).hcint
          hcintmsk := 0#11 } ∧
      SameBytes s t ∧
      t = { s with
        chan := t.chan
        hwq := s.hwq ++ abortStrobes (s.slot i) i
        resq := s.resq ++ [0#32] }) ∧
    (∃ t, exec (.cmdEpReset h rsv) s = .next t ∧ exec (.cmdEpTransferAbort h rsv) s = .next t ∧
      OnlySlot s t i (afterAbort (s.slot i)) ∧
      SameBytes s t ∧
      t = { s with
        chan := t.chan
        hwq := s.hwq ++ abortStrobes (s.slot i) i
        resq := s.resq ++ [0#32] })

/-! ## Transfers -/

/-- EP_TRANSFER (R181, R182, R184). Its errors in their order, with nothing changed: PARAM for the operands, then INVALID
while the port is disconnected, then BUSY while the channel has an active transfer or one on hardware. Accepted: the record
is written, the channel programmed and enabled, the outgoing payload pushed; no other channel, no memory, no event changes. -/
def Obligations.TransferProgramsTheChannel : Prop :=
  (∀ (h : Byte) (tok tog : BitVec 4) (buf len : Word) (rsv : BitVec 8) (s : State),
    ((rsv ≠ 0 ∨ (∀ i, ¬ Names s h i) ∨ tok.toNat = 0 ∨ 4 < tok.toNat ∨ tog.toNat = 0 ∨ 2 < tog.toNat ∨
        (buf = 0 ∧ len ≠ 0)) →
      exec (.cmdEpTransfer h tok tog buf len rsv) s = .next (answered s 0xFFFFFFFB#32)) ∧
    (∀ i, rsv = 0 → Names s h i → 1 ≤ tok.toNat → tok.toNat ≤ 4 → 1 ≤ tog.toNat → tog.toNat ≤ 2 →
      (buf ≠ 0 ∨ len = 0) →
      (s.port.connected = false →
        exec (.cmdEpTransfer h tok tog buf len rsv) s = .next (answered s 0xFFFFFFFF#32)) ∧
      (s.port.connected = true → ((s.slot i).xfer.active = true ∨ (s.slot i).xfer.inProgress = true) →
        exec (.cmdEpTransfer h tok tog buf len rsv) s = .next (answered s 0xFFFFFFFE#32)))) ∧
  ∀ (h : Byte) (tok tog : BitVec 4) (buf len : Word) (rsv : BitVec 8) (s : State) (i : ChanId),
    rsv = 0 → Names s h i → 1 ≤ tok.toNat → tok.toNat ≤ 4 → 1 ≤ tog.toNat → tog.toNat ≤ 2 → (buf ≠ 0 ∨ len = 0) →
    s.port.connected = true → (s.slot i).xfer.active = false → (s.slot i).xfer.inProgress = false →
    ∃ t token toggle, exec (.cmdEpTransfer h tok tog buf len rsv) s = .next t ∧
      token.code = tok ∧ toggle.code = tog ∧
      OnlySlot s t i (onHardware { s.slot i with
        xfer := ⟨buf, len, 0#32, token, toggle, (s.slot i).ep.reload, true, false, none, 0#11⟩ }) ∧
      (∀ j, t.tx j = if j = i ∧ tok ≠ 3#4 then s.tx j ++ payloadWords s.mem buf len.toNat else s.tx j) ∧
      SameBytes s t ∧
      t = { s with
        chan := t.chan
        txq := t.txq
        hwq := s.hwq ++ [.enable i]
        resq := s.resq ++ [0#32] }

/-- EP_TRANSFER_RESULT returns the count and writes nothing (R188). -/
def Obligations.TransferResultReturnsTheCount : Prop :=
  ∀ (h : Byte) (rsv : BitVec 16) (s : State),
    (∀ i, rsv = 0 → Names s h i →
      exec (.cmdEpTransferResult h rsv) s = .next (answered s (s.slot i).xfer.transferred)) ∧
    ((rsv ≠ 0 ∨ ∀ i, ¬ Names s h i) → exec (.cmdEpTransferResult h rsv) s = .next (answered s 0#32))

/-- The pushed words carry the payload low byte first, the lanes beyond the count zero (R77, R160, R161). -/
def Obligations.PushedWordsCarryThePayload : Prop :=
  ∀ (s : State) (a : Word) (n : Nat),
    (payloadWords s.mem a n).length = (n + 3) / 4 ∧
    ∀ k j, j < 4 → ∀ w, (payloadWords s.mem a n)[k]? = some w →
      lane w j = if 4 * k + j < n then memRead s (a + BitVec.ofNat 32 (4 * k + j)) else 0#8

/-- The size word (R116, R117, R202): XFRSIZ saturates at 524287; PKTCNT is the least packet count that covers the remainder,
at least 1, saturated at 1023; the PID by token and toggle; the do-ping flag. -/
def Obligations.SizeWordSaturates : Prop :=
  ∀ (x : Transfer) (mps : BitVec 11), mps ≠ 0 →
    let rem := x.length.toNat - x.transferred.toNat
    (sizeWord x mps).xfrsiz.toNat = min rem 524287 ∧
    (∃ n, rem ≤ n * mps.toNat ∧ (∀ m, rem ≤ m * mps.toNat → n ≤ m) ∧
      (sizeWord x mps).pktcnt.toNat = min (max 1 n) 1023) ∧
    (x.token = .setup → (sizeWord x mps).dpid = 3#2) ∧
    (x.token ≠ .setup → x.toggle = .data0 → (sizeWord x mps).dpid = 0#2) ∧
    (x.token ≠ .setup → x.toggle = .data1 → (sizeWord x mps).dpid = 2#2) ∧
    ((sizeWord x mps).doping = true ↔ x.token = .ping)

/-! ## Causes -/

/-- XFRC (R191): a zero count becomes the length, TRANSFER_COMPLETE unless an event is marked, a halt is requested. -/
def Obligations.XfrcCompletesTheTransfer : Prop :=
  ∀ (ch : ChanId) (s : State), ∃ t, exec (.hcintXfrc ch) s = .next t ∧
    OnlySlot s t ch { halted (s.slot ch) with
      xfer := { (s.slot ch).xfer with
        transferred := if (s.slot ch).xfer.transferred = 0 then (s.slot ch).xfer.length else (s.slot ch).xfer.transferred
        event := some ((s.slot ch).xfer.event.getD .transferComplete) } } ∧
    SameBytes s t ∧
    t = { s with chan := t.chan, hwq := s.hwq ++ haltStrobes (s.slot ch) ch }

/-- STALL determines HANDSHAKE_STALL; TXERR, BBERR and DTERR determine BUS_ERROR; each requests a halt and leaves the count (R192,
R196, R197, R198). -/
def Obligations.StallAndBusErrorsAreTerminal : Prop :=
  ∀ (ch : ChanId) (s : State),
    (∃ t, exec (.hcintStall ch) s = .next t ∧
      OnlySlot s t ch { halted (s.slot ch) with xfer := { (s.slot ch).xfer with event := some .handshakeStall } } ∧
      SameBytes s t ∧
      t = { s with chan := t.chan, hwq := s.hwq ++ haltStrobes (s.slot ch) ch }) ∧
    (∃ t, exec (.hcintTxerr ch) s = .next t ∧ exec (.hcintBberr ch) s = .next t ∧ exec (.hcintDterr ch) s = .next t ∧
      OnlySlot s t ch { halted (s.slot ch) with xfer := { (s.slot ch).xfer with event := some .busError } } ∧
      SameBytes s t ∧
      t = { s with chan := t.chan, hwq := s.hwq ++ haltStrobes (s.slot ch) ch })

/-- NAK (R193): an IN transfer of an interrupt endpoint is halted; any other is re-armed with nothing reprogrammed. -/
def Obligations.NakSuspendsOnlyInterruptIn : Prop :=
  ∀ (ch : ChanId) (s : State), ∃ t, exec (.hcintNak ch) s = .next t ∧ SameBytes s t ∧
    if (s.slot ch).xfer.token = .input ∧ (s.slot ch).ep.type = .interrupt then
      OnlySlot s t ch (halted (s.slot ch)) ∧ t = { s with chan := t.chan, hwq := s.hwq ++ haltStrobes (s.slot ch) ch }
    else
      OnlySlot s t ch { s.slot ch with hcchar := { (s.slot ch).hcchar with chena := true } } ∧
        t = { s with chan := t.chan, hwq := s.hwq ++ [.enable ch] }

/-- ACK (R194): an IN transfer is re-armed after a full packet with more to come; a PING becomes an OUT with no strobe; any
other case changes nothing. -/
def Obligations.AckRearmsOrPromotes : Prop :=
  ∀ (ch : ChanId) (s : State), ∃ t, exec (.hcintAck ch) s = .next t ∧ SameBytes s t ∧
    if (s.slot ch).xfer.token = .input ∧ (s.slot ch).xfer.lastRx = (s.slot ch).ep.mps ∧
        (s.slot ch).xfer.transferred.toNat < (s.slot ch).xfer.length.toNat then
      OnlySlot s t ch { s.slot ch with hcchar := { (s.slot ch).hcchar with chena := true } } ∧
        t = { s with chan := t.chan, hwq := s.hwq ++ [.enable ch] }
    else if (s.slot ch).xfer.token = .ping then
      OnlySlot s t ch { s.slot ch with xfer := { (s.slot ch).xfer with token := .out } } ∧ t = { s with chan := t.chan }
    else t = s

/-- CHH (R50, R199): nothing is on hardware any more and the mask is 0; an active transfer with a determined event is ended
and the event is emitted to an attached sink; without one it stays active, parked. -/
def Obligations.ChhDeliversOrParks : Prop :=
  ∀ (ch : ChanId) (s : State), ∃ t, exec (.hcintChh ch) s = .next t ∧ SameBytes s t ∧
    (∀ e, (s.slot ch).xfer.active = true → (s.slot ch).xfer.event = some e →
      OnlySlot s t ch { s.slot ch with
        hcintmsk := 0#11
        xfer := { (s.slot ch).xfer with inProgress := false, active := false, event := none } } ∧
      t = { s with
        chan := t.chan
        evq := s.evq ++ (if s.cbEp then [.ep (BitVec.ofNat 8 (ch.val + 1)) e] else []) }) ∧
    (((s.slot ch).xfer.active = false ∨ (s.slot ch).xfer.event = none) →
      OnlySlot s t ch { s.slot ch with
        hcintmsk := 0#11
        xfer := { (s.slot ch).xfer with inProgress := false } } ∧
      t = { s with chan := t.chan })

/-- NYET marks a transfer with no event as HANDSHAKE_NYET and does nothing else (R195); the two unnamed causes fall through to a
halt request (R200). -/
def Obligations.NyetMarksAndUnnamedCausesHalt : Prop :=
  ∀ (ch : ChanId) (s : State),
    (∃ t, exec (.hcintNyet ch) s = .next t ∧
      OnlySlot s t ch { s.slot ch with
        xfer := { (s.slot ch).xfer with event := some ((s.slot ch).xfer.event.getD .handshakeNyet) } } ∧
      SameBytes s t ∧ t = { s with chan := t.chan }) ∧
    (∃ t, exec (.hcintRsv2 ch) s = .next t ∧ exec (.hcintRsv9 ch) s = .next t ∧
      OnlySlot s t ch (halted (s.slot ch)) ∧
      SameBytes s t ∧ t = { s with chan := t.chan, hwq := s.hwq ++ haltStrobes (s.slot ch) ch })

/-! ## The receive path -/

/-- A data packet for an active IN transfer (R77, R163, R164, R167, R169): its words are popped, its bytes stored from
`buf + transferred` upward and never past the length, `transferred` advanced by what was stored, `last_rx` set to the full
count. -/
def Obligations.DataPacketsAreStored : Prop :=
  ∀ (ch : ChanId) (bcnt : BitVec 11) (dpid : BitVec 2) (rsv : BitVec 11) (s : State),
    (bcnt.toNat + 3) / 4 ≤ s.rxdatQ.length → Memory.wf s.mem = true →
    (s.slot ch).bound = true → (s.slot ch).xfer.active = true → (s.slot ch).xfer.token = .input →
    let x := (s.slot ch).xfer
    let stored := min bcnt.toNat (x.length.toNat - x.transferred.toNat)
    ∃ t, exec (.rxstsInData ch bcnt dpid rsv) s = .next t ∧
      OnlySlot s t ch { s.slot ch with
        xfer := { x with transferred := BitVec.ofNat 32 (x.transferred.toNat + stored), lastRx := bcnt } } ∧
      (∀ a : Word, memRead t a =
        let p := (a - (x.buf + x.transferred)).toNat
        if p < stored then lane ((s.rxdatQ[p / 4]?).getD 0) (p % 4) else memRead s a) ∧
      t = { s with
        chan := t.chan
        mem := t.mem
        rxdatQ := s.rxdatQ.drop ((bcnt.toNat + 3) / 4) }

/-- A data packet for a free channel, one with no active transfer or one whose token is not IN is popped and dropped (R166); with
fewer words than it needs there is no step (R168, U7). -/
def Obligations.StrayPacketsAreDropped : Prop :=
  ∀ (ch : ChanId) (bcnt : BitVec 11) (dpid : BitVec 2) (rsv : BitVec 11) (s : State),
    ((bcnt.toNat + 3) / 4 ≤ s.rxdatQ.length →
      ((s.slot ch).bound = false ∨ (s.slot ch).xfer.active = false ∨ (s.slot ch).xfer.token ≠ .input) →
      exec (.rxstsInData ch bcnt dpid rsv) s =
        .next { s with rxdatQ := s.rxdatQ.drop ((bcnt.toNat + 3) / 4) }) ∧
    (s.rxdatQ.length < (bcnt.toNat + 3) / 4 →
      exec (.rxstsInData ch bcnt dpid rsv) s = .refused .rxUnderflow)

/-- Every other receive status code is discarded: the status word is popped by the receive pass and nothing else happens (R165,
R225). -/
def Obligations.StatusOnlyEntriesAreDiscarded : Prop :=
  (∀ (ch : ChanId) (bcnt : BitVec 11) (dpid : BitVec 2) (pktsts : BitVec 4) (rsv : BitVec 11) (s : State),
    exec (.rxstsInXferDone ch bcnt dpid rsv) s = .next s ∧ exec (.rxstsToggleErr ch bcnt dpid rsv) s = .next s ∧
    exec (.rxstsChHalted ch bcnt dpid rsv) s = .next s ∧ exec (.rxstsOther ch bcnt dpid pktsts rsv) s = .next s) ∧
  (∀ (w : Word) (rest : List Word) (s : State), s.rxstsQ = w :: rest → field w 17 4 ≠ 2#4 →
    exec .gintRxflvl s = .next { s with rxstsQ := rest, gintmsk := s.gintmsk ||| 0x00000010#32 })

/-! ## The passes -/

/-- The disconnect pass (R50, R224): every active transfer of a bound channel is ended with no register touched, `connected`
drops, one DISCONNECT is emitted. -/
def Obligations.DisconnectEndsEveryTransfer : Prop :=
  ∀ s : State, ∃ t, exec .gintDiscint s = .next t ∧
    (∀ i, t.slot i =
      if (s.slot i).bound = true ∧ (s.slot i).xfer.active = true then
        { s.slot i with xfer := { (s.slot i).xfer with active := false, inProgress := false, event := none } }
      else s.slot i) ∧
    SameBytes s t ∧
    t = { s with
      chan := t.chan
      discLatch := false
      port := { s.port with connected := false }
      evq := s.evq ++ (if s.cbPort then [.port .disconnect] else []) }

/-- The channel pass (R226) serves every pending channel once, in ascending index, each as if alone, and leaves none pending:
a slot is what its own service makes of it, and both traces gain what the services of the pending channels append, lowest
index first, at most one event a channel. -/
def Obligations.ChannelPassServesEachPendingChannel : Prop :=
  ∀ s : State, ∃ (t : State) (strobes : ChanId → List Strobe) (events : ChanId → List Event),
    exec .gintHcint s = .next t ∧
    (∀ i, (s.slot i).pending = true →
      (chanService i s).hwq = s.hwq ++ strobes i ∧ (chanService i s).evq = s.evq ++ events i ∧ (events i).length ≤ 1) ∧
    (∀ i, t.slot i = if (s.slot i).pending = true then (chanService i s).slot i else s.slot i) ∧
    (∀ i, (t.slot i).pending = false) ∧
    SameBytes s t ∧
    t = { s with
      chan := t.chan
      hwq := s.hwq ++ ((List.finRange 16).filter (fun i => (s.slot i).pending)).flatMap strobes
      evq := s.evq ++ ((List.finRange 16).filter (fun i => (s.slot i).pending)).flatMap events }

/-- The start-of-frame pass (R227, R240 to R243): every parked control or bulk channel, and every parked periodic one whose
countdown is done, is programmed anew with its remainder; other parked periodic channels count down by one. -/
def Obligations.SofPassRearmsParkedChannels : Prop :=
  ∀ s : State, ∃ t, exec .gintSof s = .next t ∧
    (∀ i, t.slot i = afterTick (s.slot i)) ∧
    (∀ i, t.tx i = s.tx i ++ (if isRearmed (s.slot i) then pushedBy s (s.slot i) else [])) ∧
    SameBytes s t ∧
    t = { s with
      chan := t.chan
      txq := t.txq
      sofLatch := false
      hwq := s.hwq ++ (chanIds.filter (fun i => isRearmed (s.slot i))).map Strobe.enable }

/-- A periodic channel parked with a fresh countdown is re-armed by the tick whose number is its reload, the first if that
is 0, and not before; then the countdown is the reload again (R241). -/
def Obligations.PeriodicChannelWaitsItsInterval : Prop :=
  ∀ (s : State) (i : ChanId) (n : Nat), isParked (s.slot i) = true → isPeriodic (s.slot i) = true →
    (s.slot i).xfer.countdown = (s.slot i).ep.reload → n = max 1 (s.slot i).ep.reload.toNat →
    (∀ k, k < n → ((sofTick^[k] s).slot i).xfer.inProgress = false ∧
      ((sofTick^[k] s).slot i).xfer.countdown.toNat = (s.slot i).ep.reload.toNat - k) ∧
    ((sofTick^[n] s).slot i).xfer.inProgress = true ∧
    ((sofTick^[n] s).slot i).xfer.countdown = (s.slot i).ep.reload

/-- The port pass and its two causes (R50, R260 to R263): the change bits are always acknowledged; with the guard clear a
connect sets `connected` and emits CONNECT, an enable change with PENA set stores the decoded speed and emits RESET. -/
def Obligations.PortCausesAreGuarded : Prop :=
  ∀ s : State,
    (∃ t, exec .hprtPcdet s = .next t ∧ SameBytes s t ∧
      t = { s with
        hprt := { s.hprt with pcdet := false }
        port := { s.port with connected := s.port.connected || !s.port.portReset }
        evq := s.evq ++ (if s.cbPort && !s.port.portReset then [.port .connect] else []) }) ∧
    (∀ pena pspd, ∃ t, exec (.hprtPenchng pena pspd) s = .next t ∧ SameBytes s t ∧
      t = { s with
        hprt := { s.hprt with penchng := false }
        port := if pena && !s.port.portReset then
            { s.port with speed := if pspd = 0 then .high else if pspd = 1 then .full else if pspd = 2 then .low
              else s.port.speed }
          else s.port
        evq := s.evq ++ (if s.cbPort && pena && !s.port.portReset then [.port .reset] else []) }) ∧
    (∃ t, exec .gintHprtint s = .next t ∧ t.hprt.pcdet = false ∧ t.hprt.penchng = false ∧
      (s.port.portReset = true → t.port = s.port ∧ t.evq = s.evq) ∧
      (∀ i, t.slot i = s.slot i) ∧ SameBytes s t ∧
      t = { s with hprt := t.hprt, port := t.port, evq := t.evq })
end

