-- ==== Sys2Proof/Laws/State.lean ====
section
/-! SUPPORT. One lemma per field and update of State, each true by unfolding the update once, so that no later proof unfolds a
record update. -/

namespace Sys2Proof.Machine

/-- Two states with the same slots have the same bank of channels. -/
theorem State.chan_ext {s t : State} (h : ∀ i, s.slot i = t.slot i) : s.chan = t.chan := by
  apply Vector.ext
  intro i hi
  exact h ⟨i, hi⟩

/-- Two states with the same transmit traces have the same bank of them. -/
theorem State.txq_ext {s t : State} (h : ∀ i, s.tx i = t.tx i) : s.txq = t.txq := by
  apply Vector.ext
  intro i hi
  exact h ⟨i, hi⟩

/-- `modChan` rewrites one slot. -/
@[simp] theorem State.modChan_slot (s : State) (i j : ChanId) (f : Chan → Chan) :
    (s.modChan i f).slot j = if j = i then f (s.slot i) else s.slot j := by
  by_cases h : j = i
  · subst h; simp [State.modChan, State.slot]
  · have : i.val ≠ j.val := fun e => h (Fin.ext e.symm)
    simp [State.modChan, State.slot, this, h]

/-- `mapChans` is the map over the slots. -/
theorem State.mapChans_chan (s : State) (f : Chan → Chan) : (s.mapChans f).chan = s.chan.map f := by
  apply Vector.toList_inj.mp
  simp [State.mapChans, Vector.toList_map]

/-- `mapChans` rewrites every slot. -/
@[simp] theorem State.mapChans_slot (s : State) (f : Chan → Chan) (j : ChanId) :
    (s.mapChans f).slot j = f (s.slot j) := by
  simp [State.slot, State.mapChans_chan]

/-- `pushTx` appends to one transmit trace. -/
@[simp] theorem State.pushTx_tx (s : State) (i j : ChanId) (ws : List Word) :
    (s.pushTx i ws).tx j = if j = i then s.tx i ++ ws else s.tx j := by
  by_cases h : j = i
  · subst h; simp [State.pushTx, State.tx]
  · have : i.val ≠ j.val := fun e => h (Fin.ext e.symm)
    simp [State.pushTx, State.tx, this, h]

@[simp] theorem State.modChan_port (s : State) (i : ChanId) (f : Chan → Chan) : (s.modChan i f).port = s.port := rfl
@[simp] theorem State.modChan_hprt (s : State) (i : ChanId) (f : Chan → Chan) : (s.modChan i f).hprt = s.hprt := rfl
@[simp] theorem State.modChan_sofLatch (s : State) (i : ChanId) (f : Chan → Chan) : (s.modChan i f).sofLatch = s.sofLatch := rfl
@[simp] theorem State.modChan_discLatch (s : State) (i : ChanId) (f : Chan → Chan) : (s.modChan i f).discLatch = s.discLatch := rfl
@[simp] theorem State.modChan_gintmsk (s : State) (i : ChanId) (f : Chan → Chan) : (s.modChan i f).gintmsk = s.gintmsk := rfl
@[simp] theorem State.modChan_irqEn (s : State) (i : ChanId) (f : Chan → Chan) : (s.modChan i f).irqEn = s.irqEn := rfl
@[simp] theorem State.modChan_cbPort (s : State) (i : ChanId) (f : Chan → Chan) : (s.modChan i f).cbPort = s.cbPort := rfl
@[simp] theorem State.modChan_cbEp (s : State) (i : ChanId) (f : Chan → Chan) : (s.modChan i f).cbEp = s.cbEp := rfl
@[simp] theorem State.modChan_frnum (s : State) (i : ChanId) (f : Chan → Chan) : (s.modChan i f).frnum = s.frnum := rfl
@[simp] theorem State.modChan_rxstsQ (s : State) (i : ChanId) (f : Chan → Chan) : (s.modChan i f).rxstsQ = s.rxstsQ := rfl
@[simp] theorem State.modChan_rxdatQ (s : State) (i : ChanId) (f : Chan → Chan) : (s.modChan i f).rxdatQ = s.rxdatQ := rfl
@[simp] theorem State.modChan_evq (s : State) (i : ChanId) (f : Chan → Chan) : (s.modChan i f).evq = s.evq := rfl
@[simp] theorem State.modChan_txq (s : State) (i : ChanId) (f : Chan → Chan) : (s.modChan i f).txq = s.txq := rfl
@[simp] theorem State.modChan_hwq (s : State) (i : ChanId) (f : Chan → Chan) : (s.modChan i f).hwq = s.hwq := rfl
@[simp] theorem State.modChan_mem (s : State) (i : ChanId) (f : Chan → Chan) : (s.modChan i f).mem = s.mem := rfl
@[simp] theorem State.modChan_inbox (s : State) (i : ChanId) (f : Chan → Chan) : (s.modChan i f).inbox = s.inbox := rfl
@[simp] theorem State.modChan_resq (s : State) (i : ChanId) (f : Chan → Chan) : (s.modChan i f).resq = s.resq := rfl
@[simp] theorem State.modChan_draws (s : State) (i : ChanId) (f : Chan → Chan) : (s.modChan i f).draws = s.draws := rfl
@[simp] theorem State.modChan_drawCount (s : State) (i : ChanId) (f : Chan → Chan) : (s.modChan i f).drawCount = s.drawCount := rfl
@[simp] theorem State.modChan_tx (s : State) (i : ChanId) (f : Chan → Chan) (j : ChanId) : (s.modChan i f).tx j = s.tx j := rfl

@[simp] theorem State.mapChans_port (s : State) (f : Chan → Chan) : (s.mapChans f).port = s.port := rfl
@[simp] theorem State.mapChans_hprt (s : State) (f : Chan → Chan) : (s.mapChans f).hprt = s.hprt := rfl
@[simp] theorem State.mapChans_sofLatch (s : State) (f : Chan → Chan) : (s.mapChans f).sofLatch = s.sofLatch := rfl
@[simp] theorem State.mapChans_discLatch (s : State) (f : Chan → Chan) : (s.mapChans f).discLatch = s.discLatch := rfl
@[simp] theorem State.mapChans_gintmsk (s : State) (f : Chan → Chan) : (s.mapChans f).gintmsk = s.gintmsk := rfl
@[simp] theorem State.mapChans_irqEn (s : State) (f : Chan → Chan) : (s.mapChans f).irqEn = s.irqEn := rfl
@[simp] theorem State.mapChans_cbPort (s : State) (f : Chan → Chan) : (s.mapChans f).cbPort = s.cbPort := rfl
@[simp] theorem State.mapChans_cbEp (s : State) (f : Chan → Chan) : (s.mapChans f).cbEp = s.cbEp := rfl
@[simp] theorem State.mapChans_frnum (s : State) (f : Chan → Chan) : (s.mapChans f).frnum = s.frnum := rfl
@[simp] theorem State.mapChans_rxstsQ (s : State) (f : Chan → Chan) : (s.mapChans f).rxstsQ = s.rxstsQ := rfl
@[simp] theorem State.mapChans_rxdatQ (s : State) (f : Chan → Chan) : (s.mapChans f).rxdatQ = s.rxdatQ := rfl
@[simp] theorem State.mapChans_evq (s : State) (f : Chan → Chan) : (s.mapChans f).evq = s.evq := rfl
@[simp] theorem State.mapChans_txq (s : State) (f : Chan → Chan) : (s.mapChans f).txq = s.txq := rfl
@[simp] theorem State.mapChans_hwq (s : State) (f : Chan → Chan) : (s.mapChans f).hwq = s.hwq := rfl
@[simp] theorem State.mapChans_mem (s : State) (f : Chan → Chan) : (s.mapChans f).mem = s.mem := rfl
@[simp] theorem State.mapChans_inbox (s : State) (f : Chan → Chan) : (s.mapChans f).inbox = s.inbox := rfl
@[simp] theorem State.mapChans_resq (s : State) (f : Chan → Chan) : (s.mapChans f).resq = s.resq := rfl
@[simp] theorem State.mapChans_draws (s : State) (f : Chan → Chan) : (s.mapChans f).draws = s.draws := rfl
@[simp] theorem State.mapChans_drawCount (s : State) (f : Chan → Chan) : (s.mapChans f).drawCount = s.drawCount := rfl
@[simp] theorem State.mapChans_tx (s : State) (f : Chan → Chan) (j : ChanId) : (s.mapChans f).tx j = s.tx j := rfl

@[simp] theorem State.emitPort_chan (s : State) (c : PortEvent) : (s.emitPort c).chan = s.chan := rfl
@[simp] theorem State.emitPort_port (s : State) (c : PortEvent) : (s.emitPort c).port = s.port := rfl
@[simp] theorem State.emitPort_hprt (s : State) (c : PortEvent) : (s.emitPort c).hprt = s.hprt := rfl
@[simp] theorem State.emitPort_sofLatch (s : State) (c : PortEvent) : (s.emitPort c).sofLatch = s.sofLatch := rfl
@[simp] theorem State.emitPort_discLatch (s : State) (c : PortEvent) : (s.emitPort c).discLatch = s.discLatch := rfl
@[simp] theorem State.emitPort_gintmsk (s : State) (c : PortEvent) : (s.emitPort c).gintmsk = s.gintmsk := rfl
@[simp] theorem State.emitPort_irqEn (s : State) (c : PortEvent) : (s.emitPort c).irqEn = s.irqEn := rfl
@[simp] theorem State.emitPort_cbPort (s : State) (c : PortEvent) : (s.emitPort c).cbPort = s.cbPort := rfl
@[simp] theorem State.emitPort_cbEp (s : State) (c : PortEvent) : (s.emitPort c).cbEp = s.cbEp := rfl
@[simp] theorem State.emitPort_frnum (s : State) (c : PortEvent) : (s.emitPort c).frnum = s.frnum := rfl
@[simp] theorem State.emitPort_rxstsQ (s : State) (c : PortEvent) : (s.emitPort c).rxstsQ = s.rxstsQ := rfl
@[simp] theorem State.emitPort_rxdatQ (s : State) (c : PortEvent) : (s.emitPort c).rxdatQ = s.rxdatQ := rfl
@[simp] theorem State.emitPort_evq (s : State) (c : PortEvent) : (s.emitPort c).evq = if s.cbPort then s.evq ++ [.port c] else s.evq := rfl
@[simp] theorem State.emitPort_txq (s : State) (c : PortEvent) : (s.emitPort c).txq = s.txq := rfl
@[simp] theorem State.emitPort_hwq (s : State) (c : PortEvent) : (s.emitPort c).hwq = s.hwq := rfl
@[simp] theorem State.emitPort_mem (s : State) (c : PortEvent) : (s.emitPort c).mem = s.mem := rfl
@[simp] theorem State.emitPort_inbox (s : State) (c : PortEvent) : (s.emitPort c).inbox = s.inbox := rfl
@[simp] theorem State.emitPort_resq (s : State) (c : PortEvent) : (s.emitPort c).resq = s.resq := rfl
@[simp] theorem State.emitPort_draws (s : State) (c : PortEvent) : (s.emitPort c).draws = s.draws := rfl
@[simp] theorem State.emitPort_drawCount (s : State) (c : PortEvent) : (s.emitPort c).drawCount = s.drawCount := rfl
@[simp] theorem State.emitPort_slot (s : State) (c : PortEvent) (j : ChanId) : (s.emitPort c).slot j = s.slot j := rfl
@[simp] theorem State.emitPort_tx (s : State) (c : PortEvent) (j : ChanId) : (s.emitPort c).tx j = s.tx j := rfl

@[simp] theorem State.emitEp_chan (s : State) (i : ChanId) (c : EpEvent) : (s.emitEp i c).chan = s.chan := rfl
@[simp] theorem State.emitEp_port (s : State) (i : ChanId) (c : EpEvent) : (s.emitEp i c).port = s.port := rfl
@[simp] theorem State.emitEp_hprt (s : State) (i : ChanId) (c : EpEvent) : (s.emitEp i c).hprt = s.hprt := rfl
@[simp] theorem State.emitEp_sofLatch (s : State) (i : ChanId) (c : EpEvent) : (s.emitEp i c).sofLatch = s.sofLatch := rfl
@[simp] theorem State.emitEp_discLatch (s : State) (i : ChanId) (c : EpEvent) : (s.emitEp i c).discLatch = s.discLatch := rfl
@[simp] theorem State.emitEp_gintmsk (s : State) (i : ChanId) (c : EpEvent) : (s.emitEp i c).gintmsk = s.gintmsk := rfl
@[simp] theorem State.emitEp_irqEn (s : State) (i : ChanId) (c : EpEvent) : (s.emitEp i c).irqEn = s.irqEn := rfl
@[simp] theorem State.emitEp_cbPort (s : State) (i : ChanId) (c : EpEvent) : (s.emitEp i c).cbPort = s.cbPort := rfl
@[simp] theorem State.emitEp_cbEp (s : State) (i : ChanId) (c : EpEvent) : (s.emitEp i c).cbEp = s.cbEp := rfl
@[simp] theorem State.emitEp_frnum (s : State) (i : ChanId) (c : EpEvent) : (s.emitEp i c).frnum = s.frnum := rfl
@[simp] theorem State.emitEp_rxstsQ (s : State) (i : ChanId) (c : EpEvent) : (s.emitEp i c).rxstsQ = s.rxstsQ := rfl
@[simp] theorem State.emitEp_rxdatQ (s : State) (i : ChanId) (c : EpEvent) : (s.emitEp i c).rxdatQ = s.rxdatQ := rfl
@[simp] theorem State.emitEp_evq (s : State) (i : ChanId) (c : EpEvent) : (s.emitEp i c).evq = if s.cbEp then s.evq ++ [.ep (handleOf i) c] else s.evq := rfl
@[simp] theorem State.emitEp_txq (s : State) (i : ChanId) (c : EpEvent) : (s.emitEp i c).txq = s.txq := rfl
@[simp] theorem State.emitEp_hwq (s : State) (i : ChanId) (c : EpEvent) : (s.emitEp i c).hwq = s.hwq := rfl
@[simp] theorem State.emitEp_mem (s : State) (i : ChanId) (c : EpEvent) : (s.emitEp i c).mem = s.mem := rfl
@[simp] theorem State.emitEp_inbox (s : State) (i : ChanId) (c : EpEvent) : (s.emitEp i c).inbox = s.inbox := rfl
@[simp] theorem State.emitEp_resq (s : State) (i : ChanId) (c : EpEvent) : (s.emitEp i c).resq = s.resq := rfl
@[simp] theorem State.emitEp_draws (s : State) (i : ChanId) (c : EpEvent) : (s.emitEp i c).draws = s.draws := rfl
@[simp] theorem State.emitEp_drawCount (s : State) (i : ChanId) (c : EpEvent) : (s.emitEp i c).drawCount = s.drawCount := rfl
@[simp] theorem State.emitEp_slot (s : State) (i : ChanId) (c : EpEvent) (j : ChanId) : (s.emitEp i c).slot j = s.slot j := rfl
@[simp] theorem State.emitEp_tx (s : State) (i : ChanId) (c : EpEvent) (j : ChanId) : (s.emitEp i c).tx j = s.tx j := rfl

@[simp] theorem State.strobe_chan (s : State) (x : Strobe) : (s.strobe x).chan = s.chan := rfl
@[simp] theorem State.strobe_port (s : State) (x : Strobe) : (s.strobe x).port = s.port := rfl
@[simp] theorem State.strobe_hprt (s : State) (x : Strobe) : (s.strobe x).hprt = s.hprt := rfl
@[simp] theorem State.strobe_sofLatch (s : State) (x : Strobe) : (s.strobe x).sofLatch = s.sofLatch := rfl
@[simp] theorem State.strobe_discLatch (s : State) (x : Strobe) : (s.strobe x).discLatch = s.discLatch := rfl
@[simp] theorem State.strobe_gintmsk (s : State) (x : Strobe) : (s.strobe x).gintmsk = s.gintmsk := rfl
@[simp] theorem State.strobe_irqEn (s : State) (x : Strobe) : (s.strobe x).irqEn = s.irqEn := rfl
@[simp] theorem State.strobe_cbPort (s : State) (x : Strobe) : (s.strobe x).cbPort = s.cbPort := rfl
@[simp] theorem State.strobe_cbEp (s : State) (x : Strobe) : (s.strobe x).cbEp = s.cbEp := rfl
@[simp] theorem State.strobe_frnum (s : State) (x : Strobe) : (s.strobe x).frnum = s.frnum := rfl
@[simp] theorem State.strobe_rxstsQ (s : State) (x : Strobe) : (s.strobe x).rxstsQ = s.rxstsQ := rfl
@[simp] theorem State.strobe_rxdatQ (s : State) (x : Strobe) : (s.strobe x).rxdatQ = s.rxdatQ := rfl
@[simp] theorem State.strobe_evq (s : State) (x : Strobe) : (s.strobe x).evq = s.evq := rfl
@[simp] theorem State.strobe_txq (s : State) (x : Strobe) : (s.strobe x).txq = s.txq := rfl
@[simp] theorem State.strobe_hwq (s : State) (x : Strobe) : (s.strobe x).hwq = s.hwq ++ [x] := rfl
@[simp] theorem State.strobe_mem (s : State) (x : Strobe) : (s.strobe x).mem = s.mem := rfl
@[simp] theorem State.strobe_inbox (s : State) (x : Strobe) : (s.strobe x).inbox = s.inbox := rfl
@[simp] theorem State.strobe_resq (s : State) (x : Strobe) : (s.strobe x).resq = s.resq := rfl
@[simp] theorem State.strobe_draws (s : State) (x : Strobe) : (s.strobe x).draws = s.draws := rfl
@[simp] theorem State.strobe_drawCount (s : State) (x : Strobe) : (s.strobe x).drawCount = s.drawCount := rfl
@[simp] theorem State.strobe_slot (s : State) (x : Strobe) (j : ChanId) : (s.strobe x).slot j = s.slot j := rfl
@[simp] theorem State.strobe_tx (s : State) (x : Strobe) (j : ChanId) : (s.strobe x).tx j = s.tx j := rfl

@[simp] theorem State.pushTx_chan (s : State) (i : ChanId) (ws : List Word) : (s.pushTx i ws).chan = s.chan := rfl
@[simp] theorem State.pushTx_port (s : State) (i : ChanId) (ws : List Word) : (s.pushTx i ws).port = s.port := rfl
@[simp] theorem State.pushTx_hprt (s : State) (i : ChanId) (ws : List Word) : (s.pushTx i ws).hprt = s.hprt := rfl
@[simp] theorem State.pushTx_sofLatch (s : State) (i : ChanId) (ws : List Word) : (s.pushTx i ws).sofLatch = s.sofLatch := rfl
@[simp] theorem State.pushTx_discLatch (s : State) (i : ChanId) (ws : List Word) : (s.pushTx i ws).discLatch = s.discLatch := rfl
@[simp] theorem State.pushTx_gintmsk (s : State) (i : ChanId) (ws : List Word) : (s.pushTx i ws).gintmsk = s.gintmsk := rfl
@[simp] theorem State.pushTx_irqEn (s : State) (i : ChanId) (ws : List Word) : (s.pushTx i ws).irqEn = s.irqEn := rfl
@[simp] theorem State.pushTx_cbPort (s : State) (i : ChanId) (ws : List Word) : (s.pushTx i ws).cbPort = s.cbPort := rfl
@[simp] theorem State.pushTx_cbEp (s : State) (i : ChanId) (ws : List Word) : (s.pushTx i ws).cbEp = s.cbEp := rfl
@[simp] theorem State.pushTx_frnum (s : State) (i : ChanId) (ws : List Word) : (s.pushTx i ws).frnum = s.frnum := rfl
@[simp] theorem State.pushTx_rxstsQ (s : State) (i : ChanId) (ws : List Word) : (s.pushTx i ws).rxstsQ = s.rxstsQ := rfl
@[simp] theorem State.pushTx_rxdatQ (s : State) (i : ChanId) (ws : List Word) : (s.pushTx i ws).rxdatQ = s.rxdatQ := rfl
@[simp] theorem State.pushTx_evq (s : State) (i : ChanId) (ws : List Word) : (s.pushTx i ws).evq = s.evq := rfl
@[simp] theorem State.pushTx_hwq (s : State) (i : ChanId) (ws : List Word) : (s.pushTx i ws).hwq = s.hwq := rfl
@[simp] theorem State.pushTx_mem (s : State) (i : ChanId) (ws : List Word) : (s.pushTx i ws).mem = s.mem := rfl
@[simp] theorem State.pushTx_inbox (s : State) (i : ChanId) (ws : List Word) : (s.pushTx i ws).inbox = s.inbox := rfl
@[simp] theorem State.pushTx_resq (s : State) (i : ChanId) (ws : List Word) : (s.pushTx i ws).resq = s.resq := rfl
@[simp] theorem State.pushTx_draws (s : State) (i : ChanId) (ws : List Word) : (s.pushTx i ws).draws = s.draws := rfl
@[simp] theorem State.pushTx_drawCount (s : State) (i : ChanId) (ws : List Word) : (s.pushTx i ws).drawCount = s.drawCount := rfl
@[simp] theorem State.pushTx_slot (s : State) (i : ChanId) (ws : List Word) (j : ChanId) : (s.pushTx i ws).slot j = s.slot j := rfl

@[simp] theorem State.ret_chan (s : State) (w : Word) : (s.ret w).chan = s.chan := rfl
@[simp] theorem State.ret_port (s : State) (w : Word) : (s.ret w).port = s.port := rfl
@[simp] theorem State.ret_hprt (s : State) (w : Word) : (s.ret w).hprt = s.hprt := rfl
@[simp] theorem State.ret_sofLatch (s : State) (w : Word) : (s.ret w).sofLatch = s.sofLatch := rfl
@[simp] theorem State.ret_discLatch (s : State) (w : Word) : (s.ret w).discLatch = s.discLatch := rfl
@[simp] theorem State.ret_gintmsk (s : State) (w : Word) : (s.ret w).gintmsk = s.gintmsk := rfl
@[simp] theorem State.ret_irqEn (s : State) (w : Word) : (s.ret w).irqEn = s.irqEn := rfl
@[simp] theorem State.ret_cbPort (s : State) (w : Word) : (s.ret w).cbPort = s.cbPort := rfl
@[simp] theorem State.ret_cbEp (s : State) (w : Word) : (s.ret w).cbEp = s.cbEp := rfl
@[simp] theorem State.ret_frnum (s : State) (w : Word) : (s.ret w).frnum = s.frnum := rfl
@[simp] theorem State.ret_rxstsQ (s : State) (w : Word) : (s.ret w).rxstsQ = s.rxstsQ := rfl
@[simp] theorem State.ret_rxdatQ (s : State) (w : Word) : (s.ret w).rxdatQ = s.rxdatQ := rfl
@[simp] theorem State.ret_evq (s : State) (w : Word) : (s.ret w).evq = s.evq := rfl
@[simp] theorem State.ret_txq (s : State) (w : Word) : (s.ret w).txq = s.txq := rfl
@[simp] theorem State.ret_hwq (s : State) (w : Word) : (s.ret w).hwq = s.hwq := rfl
@[simp] theorem State.ret_mem (s : State) (w : Word) : (s.ret w).mem = s.mem := rfl
@[simp] theorem State.ret_inbox (s : State) (w : Word) : (s.ret w).inbox = s.inbox := rfl
@[simp] theorem State.ret_resq (s : State) (w : Word) : (s.ret w).resq = s.resq ++ [w] := rfl
@[simp] theorem State.ret_draws (s : State) (w : Word) : (s.ret w).draws = s.draws := rfl
@[simp] theorem State.ret_drawCount (s : State) (w : Word) : (s.ret w).drawCount = s.drawCount := rfl
@[simp] theorem State.ret_slot (s : State) (w : Word) (j : ChanId) : (s.ret w).slot j = s.slot j := rfl
@[simp] theorem State.ret_tx (s : State) (w : Word) (j : ChanId) : (s.ret w).tx j = s.tx j := rfl

/-! A draw changes only what the environment still owes. -/

@[simp] theorem State.afterDraw_chan (s : State) : s.afterDraw.chan = s.chan := by
  unfold State.afterDraw; split <;> rfl
@[simp] theorem State.afterDraw_port (s : State) : s.afterDraw.port = s.port := by
  unfold State.afterDraw; split <;> rfl
@[simp] theorem State.afterDraw_hprt (s : State) : s.afterDraw.hprt = s.hprt := by
  unfold State.afterDraw; split <;> rfl
@[simp] theorem State.afterDraw_sofLatch (s : State) : s.afterDraw.sofLatch = s.sofLatch := by
  unfold State.afterDraw; split <;> rfl
@[simp] theorem State.afterDraw_discLatch (s : State) : s.afterDraw.discLatch = s.discLatch := by
  unfold State.afterDraw; split <;> rfl
@[simp] theorem State.afterDraw_gintmsk (s : State) : s.afterDraw.gintmsk = s.gintmsk := by
  unfold State.afterDraw; split <;> rfl
@[simp] theorem State.afterDraw_irqEn (s : State) : s.afterDraw.irqEn = s.irqEn := by
  unfold State.afterDraw; split <;> rfl
@[simp] theorem State.afterDraw_cbPort (s : State) : s.afterDraw.cbPort = s.cbPort := by
  unfold State.afterDraw; split <;> rfl
@[simp] theorem State.afterDraw_cbEp (s : State) : s.afterDraw.cbEp = s.cbEp := by
  unfold State.afterDraw; split <;> rfl
@[simp] theorem State.afterDraw_frnum (s : State) : s.afterDraw.frnum = s.frnum := by
  unfold State.afterDraw; split <;> rfl
@[simp] theorem State.afterDraw_rxstsQ (s : State) : s.afterDraw.rxstsQ = s.rxstsQ := by
  unfold State.afterDraw; split <;> rfl
@[simp] theorem State.afterDraw_rxdatQ (s : State) : s.afterDraw.rxdatQ = s.rxdatQ := by
  unfold State.afterDraw; split <;> rfl
@[simp] theorem State.afterDraw_evq (s : State) : s.afterDraw.evq = s.evq := by
  unfold State.afterDraw; split <;> rfl
@[simp] theorem State.afterDraw_txq (s : State) : s.afterDraw.txq = s.txq := by
  unfold State.afterDraw; split <;> rfl
@[simp] theorem State.afterDraw_hwq (s : State) : s.afterDraw.hwq = s.hwq := by
  unfold State.afterDraw; split <;> rfl
@[simp] theorem State.afterDraw_mem (s : State) : s.afterDraw.mem = s.mem := by
  unfold State.afterDraw; split <;> rfl
@[simp] theorem State.afterDraw_inbox (s : State) : s.afterDraw.inbox = s.inbox := by
  unfold State.afterDraw; split <;> rfl
@[simp] theorem State.afterDraw_resq (s : State) : s.afterDraw.resq = s.resq := by
  unfold State.afterDraw; split <;> rfl
@[simp] theorem State.afterDraw_slot (s : State) (j : ChanId) : s.afterDraw.slot j = s.slot j := by
  unfold State.afterDraw; split <;> rfl
@[simp] theorem State.afterDraw_tx (s : State) (j : ChanId) : s.afterDraw.tx j = s.tx j := by
  unfold State.afterDraw; split <;> rfl

end Sys2Proof.Machine
end

