-- ==== Sys2Proof/Laws/Ops.lean ====
section
/-! SUPPORT. What the memory and FIFO operations do, said once: reads after writes, the canonical form, pops, result lengths. -/

namespace Sys2Proof.Machine

/-! ### Client memory -/

theorem Memory.read_eq_default_of_below {m : Memory} {lo a : Nat} (h : Memory.wfFrom lo m = true) (ha : a < lo) :
    Memory.read m a = memDefault := by
  induction m generalizing lo with
  | nil => rfl
  | cons c rest ih =>
    simp only [Memory.wfFrom, Bool.and_eq_true, decide_eq_true_eq] at h
    obtain ⟨⟨⟨h1, _⟩, _⟩, h4⟩ := h
    have : c.1 ≠ a := by omega
    simp only [Memory.read, this, if_false]
    exact ih h4 (by omega)

theorem Memory.read_cell_append (m : Memory) (a v b) (h : b ≠ a) :
    Memory.read (Memory.cell a v ++ m) b = Memory.read m b := by
  unfold Memory.cell
  split
  · rfl
  · simp [Memory.read, Ne.symm h]

/-- A read after a write to another address is the read before. -/
theorem Memory.read_write_other (m : Memory) {a b : Nat} (v : Byte) (h : b ≠ a) :
    Memory.read (Memory.write m a v) b = Memory.read m b := by
  induction m with
  | nil =>
    have := Memory.read_cell_append [] a v b h
    simpa [Memory.write] using this
  | cons c rest ih =>
    unfold Memory.write
    split
    · exact Memory.read_cell_append _ a v b h
    · split
      · rename_i hac
        rw [Memory.read_cell_append _ a v b h]
        have : c.1 ≠ b := fun e => h (by omega)
        simp [Memory.read, this]
      · simp only [Memory.read, ih]

theorem Memory.read_cell_self {m : Memory} {lo a : Nat} (v : Byte) (h : Memory.wfFrom lo m = true) (ha : a < lo) :
    Memory.read (Memory.cell a v ++ m) a = v := by
  unfold Memory.cell
  split
  · rename_i hv
    simpa [hv] using Memory.read_eq_default_of_below h ha
  · simp [Memory.read]

theorem Memory.wfFrom_mono {m : Memory} {lo hi : Nat} (h : Memory.wfFrom hi m = true) (hlo : lo ≤ hi) :
    Memory.wfFrom lo m = true := by
  cases m with
  | nil => rfl
  | cons c rest =>
    simp only [Memory.wfFrom, Bool.and_eq_true, decide_eq_true_eq] at h ⊢
    exact ⟨⟨⟨by omega, h.1.1.2⟩, h.1.2⟩, h.2⟩

theorem Memory.read_write_self_from {m : Memory} {lo a : Nat} (v : Byte) (h : Memory.wfFrom lo m = true) :
    Memory.read (Memory.write m a v) a = v := by
  induction m generalizing lo with
  | nil => simpa [Memory.write] using Memory.read_cell_self (m := []) (a := a) (lo := a + 1) v rfl (by omega)
  | cons c rest ih =>
    have h' := h
    simp only [Memory.wfFrom, Bool.and_eq_true, decide_eq_true_eq] at h
    unfold Memory.write
    split
    · rename_i hac
      refine Memory.read_cell_self (a := a) (lo := a + 1) v ?_ (by omega)
      simp only [Memory.wfFrom, Bool.and_eq_true, decide_eq_true_eq]
      exact ⟨⟨⟨by omega, h.1.1.2⟩, h.1.2⟩, h.2⟩
    · split
      · rename_i hac
        exact Memory.read_cell_self (a := a) (lo := c.1 + 1) v h.2 (by omega)
      · rename_i _ hac
        have : c.1 ≠ a := fun e => hac e.symm
        simp only [Memory.read, this, if_false]
        exact ih h.2

/-- A read after a write to the same address is the byte written. -/
theorem Memory.read_write_self {m : Memory} (a : Nat) (v : Byte) (h : Memory.wf m = true) :
    Memory.read (Memory.write m a v) a = v :=
  Memory.read_write_self_from v h

theorem Memory.wfFrom_cell_append {m : Memory} {lo a : Nat} (v : Byte) (hlo : lo ≤ a) (ha : a < 2 ^ 32)
    (h : Memory.wfFrom (a + 1) m = true) : Memory.wfFrom lo (Memory.cell a v ++ m) = true := by
  unfold Memory.cell
  split
  · exact Memory.wfFrom_mono h (by omega)
  · rename_i hv
    simp only [List.cons_append, List.nil_append, Memory.wfFrom, Bool.and_eq_true, decide_eq_true_eq]
    exact ⟨⟨⟨hlo, ha⟩, hv⟩, h⟩

theorem Memory.wfFrom_write {m : Memory} {lo a : Nat} (v : Byte) (hlo : lo ≤ a) (ha : a < 2 ^ 32)
    (h : Memory.wfFrom lo m = true) : Memory.wfFrom lo (Memory.write m a v) = true := by
  induction m generalizing lo with
  | nil => simpa [Memory.write] using Memory.wfFrom_cell_append (m := []) v hlo ha rfl
  | cons c rest ih =>
    have h' := h
    simp only [Memory.wfFrom, Bool.and_eq_true, decide_eq_true_eq] at h
    unfold Memory.write
    split
    · rename_i hac
      refine Memory.wfFrom_cell_append v hlo ha ?_
      simp only [Memory.wfFrom, Bool.and_eq_true, decide_eq_true_eq]
      exact ⟨⟨⟨by omega, h.1.1.2⟩, h.1.2⟩, h.2⟩
    · split
      · rename_i hac
        exact Memory.wfFrom_cell_append v hlo ha (by rw [hac]; exact h.2)
      · rename_i h1 h2
        simp only [Memory.wfFrom, Bool.and_eq_true, decide_eq_true_eq]
        exact ⟨⟨⟨h.1.1.1, h.1.1.2⟩, h.1.2⟩, ih (by omega) h.2⟩

/-- A store keeps memory canonical. -/
theorem Memory.wf_write {m : Memory} {a : Nat} (v : Byte) (ha : a < 2 ^ 32) (h : Memory.wf m = true) :
    Memory.wf (Memory.write m a v) = true :=
  Memory.wfFrom_write v (Nat.zero_le a) ha h

/-- A run of stores keeps memory canonical. -/
theorem Memory.wf_writeBytes {m : Memory} (a : Word) (bs : List Byte) (h : Memory.wf m = true) :
    Memory.wf (Memory.writeBytes m a bs) = true := by
  induction bs generalizing m a with
  | nil => exact h
  | cons b rest ih => exact ih (a + 1) (Memory.wf_write b a.isLt h)

/-- `MemWrite` keeps memory canonical. -/
theorem memWrite_wf {s : State} (a : Word) (v : Byte) (h : Memory.wf s.mem = true) :
    Memory.wf (memWrite s a v).mem = true :=
  Memory.wf_write v a.isLt h

/-- `MemWrite` then `MemRead` at the same address (R71, R72). -/
theorem memRead_memWrite_self {s : State} (a : Word) (v : Byte) (h : Memory.wf s.mem = true) :
    memRead (memWrite s a v) a = v :=
  Memory.read_write_self a.toNat v h

/-- `MemWrite` leaves every other address alone (R72). -/
theorem memRead_memWrite_other (s : State) {a b : Word} (v : Byte) (h : b ≠ a) :
    memRead (memWrite s a v) b = memRead s b :=
  Memory.read_write_other s.mem v (fun e => h (BitVec.eq_of_toNat_eq e))

/-! ### Words -/

@[simp] theorem unpack_nil : unpack [] = [] := rfl

@[simp] theorem unpack_cons (w : Word) (ws : List Word) :
    unpack (w :: ws) = lane w 0 :: lane w 1 :: lane w 2 :: lane w 3 :: unpack ws := rfl

@[simp] theorem unpack_length (ws : List Word) : (unpack ws).length = 4 * ws.length := by
  induction ws with
  | nil => rfl
  | cons w rest ih => simp [ih]; omega

@[simp] theorem payloadWords_length (m : Memory) (a : Word) (n : Nat) :
    (payloadWords m a n).length = ceilDiv n 4 := by
  simp [payloadWords]

/-! ### The receive FIFO -/

/-- Everything `popStatus` can do. -/
theorem State.popStatus_some {s t : State} {w : Word} (h : s.popStatus = some (w, t)) :
    ∃ rest, s.rxstsQ = w :: rest ∧ t = { s with rxstsQ := rest } := by
  unfold State.popStatus at h
  split at h
  · cases h
  · rename_i w' rest hq
    cases h
    exact ⟨rest, hq, rfl⟩

/-- Everything `popWords` can do. -/
theorem State.popWords_some {s t : State} {n : Nat} {ws : List Word} (h : s.popWords n = some (ws, t)) :
    n ≤ s.rxdatQ.length ∧ ws = s.rxdatQ.take n ∧ t = { s with rxdatQ := s.rxdatQ.drop n } := by
  unfold State.popWords at h
  split at h
  · cases h
  · cases h
    exact ⟨by omega, rfl, rfl⟩

theorem State.popWords_enough {s : State} {n : Nat} (h : n ≤ s.rxdatQ.length) :
    s.popWords n = some (s.rxdatQ.take n, { s with rxdatQ := s.rxdatQ.drop n }) := by
  simp [State.popWords, Nat.not_lt.mpr h]

/-! ### Handles -/

/-- Everything `boundChan` can answer: the handle is the channel's, and the channel is bound (R106, R148). -/
theorem boundChan_some {s : State} {h : Byte} {i : ChanId} (e : boundChan s h = some i) :
    h.toNat = i.val + 1 ∧ (s.slot i).bound = true := by
  unfold boundChan at e
  split at e
  · rename_i j hj
    unfold chanOfHandle at hj
    split at hj
    · cases hj
      split at e
      · cases e
        refine ⟨?_, by assumption⟩
        simp only
        omega
      · cases e
    · cases hj
  · cases e

theorem mem_chanIds (i : ChanId) : i ∈ chanIds := by
  revert i
  decide

end Sys2Proof.Machine
end

