-- ==== Sys2Proof/Laws/Channel.lean ====
section
/-! SUPPORT. Everything the shared channel operations do to the state, one lemma each: the slot they rewrite, the strobe they
issue, the words they push, and that nothing else changes. -/

namespace Sys2Proof.Machine

/-- `HaltRequest` rewrites one slot and issues at most one strobe (R185). -/
theorem haltRequest_eq (i : ChanId) (s : State) :
    haltRequest i s = { s.modChan i Chan.halting with
      hwq := if (s.slot i).hcchar.chdis then s.hwq else s.hwq ++ [.disable i] } := by
  unfold haltRequest
  split <;> simp [State.strobe, State.modChan, *]

@[simp] theorem haltRequest_slot (i j : ChanId) (s : State) :
    (haltRequest i s).slot j = if j = i then (s.slot i).halting else s.slot j := by
  rw [haltRequest_eq]
  exact State.modChan_slot s i j Chan.halting

@[simp] theorem rearm_slot (i j : ChanId) (s : State) :
    (rearm i s).slot j =
      if j = i then { s.slot i with hcchar := { (s.slot i).hcchar with chena := true } } else s.slot j := by
  simp [rearm]

@[simp] theorem determine_slot (i j : ChanId) (e : EpEvent) (s : State) :
    (determine i e s).slot j =
      if j = i then (s.slot i).modXfer (fun x => { x with event := some e }) else s.slot j := by
  simp [determine]

/-- The slot `Abort` leaves (R186). -/
def Chan.aborted (c : Chan) : Chan :=
  (if c.xfer.inProgress then c.halting else c).modXfer Transfer.dropped

@[simp] theorem abort_slot (i j : ChanId) (s : State) :
    (abort i s).slot j = if j = i then (s.slot i).aborted else s.slot j := by
  unfold abort Chan.aborted
  by_cases hp : (s.slot i).xfer.inProgress = true <;> by_cases hj : j = i <;> simp [hp, hj]

/-- `Program` changes the slot, strobes ENABLE and pushes an outgoing remainder; nothing else (R182). -/
theorem program_eq (i : ChanId) (s : State) :
    program i s = { s with
      chan := (s.modChan i Chan.programmed).chan
      hwq := s.hwq ++ [.enable i]
      txq := if (s.slot i).xfer.token ≠ .input ∧ 0 < remaining (s.slot i).xfer then
          s.txq.set i (s.tx i ++ payloadWords s.mem ((s.slot i).xfer.buf + (s.slot i).xfer.transferred)
            (remaining (s.slot i).xfer))
        else s.txq } := by
  unfold program
  by_cases h : (s.slot i).xfer.token ≠ .input ∧ 0 < remaining (s.slot i).xfer
  · simp only [h, if_true, and_self, ne_eq, not_false_eq_true]
    rfl
  · simp only [h, if_false]
    rfl

@[simp] theorem program_slot (i j : ChanId) (s : State) :
    (program i s).slot j = if j = i then (s.slot i).programmed else s.slot j := by
  rw [program_eq]
  exact State.modChan_slot s i j Chan.programmed

/-- A tick touches only the channel it looks at (R240). -/
theorem tickChan_slot_other {i j : ChanId} (s : State) (h : j ≠ i) : (tickChan i s).slot j = s.slot j := by
  unfold tickChan periodicTick
  split
  · split
    · dsimp only
      split <;> simp [h]
    · simp [h]
  · rfl

/-! ### What a service can do -/

/-- Slot `i` becomes `d`, the strobes `xs` and the events `es` are appended, and nothing else changes. -/
def State.acted (s : State) (i : ChanId) (d : Chan) (xs : List Strobe) (es : List Event) : State :=
  { s.modChan i (fun _ => d) with
    hwq := s.hwq ++ xs
    evq := s.evq ++ es }

@[simp] theorem State.acted_slot_self (s : State) (i : ChanId) (d : Chan) (xs : List Strobe) (es : List Event) :
    (s.acted i d xs es).slot i = d := by
  simp [State.acted, State.slot, State.modChan]

@[simp] theorem State.acted_cbEp (s : State) (i : ChanId) (d : Chan) (xs : List Strobe) (es : List Event) :
    (s.acted i d xs es).cbEp = s.cbEp := rfl

@[simp] theorem State.acted_acted (s : State) (i : ChanId) (d e : Chan) (xs ys : List Strobe) (es fs : List Event) :
    (s.acted i d xs es).acted i e ys fs = s.acted i e (xs ++ ys) (es ++ fs) := by
  simp [State.acted, State.modChan]

/-- `f` acts on slot `i` alone: with `c` in the slot and endpoint events attached or not, what it puts there, the strobes
and the at most one event it appends are fixed. -/
def ActsOn (i : ChanId) (c : Chan) (cb : Bool) (f : State → State) : Prop :=
  ∃ d xs es, es.length ≤ 1 ∧ ∀ s : State, s.slot i = c → s.cbEp = cb → f s = s.acted i d xs es

/-- A function that agrees with one that acts on the slot does so too. -/
theorem ActsOn.of_eq {i : ChanId} {c : Chan} {cb : Bool} {f g : State → State} (hf : ActsOn i c cb f)
    (h : ∀ s : State, s.slot i = c → g s = f s) : ActsOn i c cb g := by
  obtain ⟨d, xs, es, hl, hd⟩ := hf
  exact ⟨d, xs, es, hl, fun s hs hcb => (h s hs).trans (hd s hs hcb)⟩

/-- Rewriting the slot, then acting on it, is acting on it. -/
theorem ActsOn.after_modChan {i : ChanId} {c : Chan} {cb : Bool} {f : Chan → Chan} {g : State → State}
    (hg : ActsOn i (f c) cb g) : ActsOn i c cb (fun s => g (s.modChan i f)) := by
  obtain ⟨d, xs, es, hl, hd⟩ := hg
  refine ⟨d, xs, es, hl, fun s hs hcb => (hd (s.modChan i f) (by simp [hs]) hcb).trans ?_⟩
  simp [State.acted, State.modChan]

theorem ActsOn.nothing (i : ChanId) (c : Chan) (cb : Bool) : ActsOn i c cb (fun s => s) :=
  ⟨c, [], [], by simp, fun s hs _ => by simp [State.acted, State.modChan, ← hs, State.slot]⟩

theorem ActsOn.modChan (i : ChanId) (c : Chan) (cb : Bool) (f : Chan → Chan) : ActsOn i c cb (fun s => s.modChan i f) :=
  (ActsOn.nothing i (f c) cb).after_modChan

theorem actsOn_haltRequest (i : ChanId) (c : Chan) (cb : Bool) : ActsOn i c cb (haltRequest i) := by
  refine ⟨c.halting, if c.hcchar.chdis then [] else [.disable i], [], by simp, fun s hs _ => ?_⟩
  rw [haltRequest_eq, hs]
  cases c.hcchar.chdis <;> simp [State.acted, State.modChan, hs]

theorem actsOn_rearm (i : ChanId) (c : Chan) (cb : Bool) : ActsOn i c cb (rearm i) :=
  ⟨{ c with hcchar := { c.hcchar with chena := true } }, [.enable i], [], by simp, fun s hs _ => by
    simp [rearm, State.strobe, State.acted, State.modChan, hs]⟩

/-- `CauseChh` emits at most the one determined event (R199). -/
theorem actsOn_causeChh (i : ChanId) (c : Chan) (cb : Bool) : ActsOn i c cb (causeChh i) := by
  cases ha : c.xfer.active <;> cases he : c.xfer.event
  case true.some e =>
    refine ⟨c.released.modXfer Transfer.dropped, [], if cb then [.ep (handleOf i) e] else [], by cases cb <;> simp, ?_⟩
    intro s hs hcb
    have hc : s.chan[i.val] = c := hs
    simp only [causeChh, hs, ha, he]
    cases cb <;> simp [State.acted, State.emitEp, hcb, State.modChan, State.slot, hc]
  all_goals exact (ActsOn.modChan i c cb Chan.released).of_eq fun s hs => by simp [causeChh, hs, ha, he]

theorem actsOn_causeNak (i : ChanId) (c : Chan) (cb : Bool) : ActsOn i c cb (causeNak i) := by
  by_cases h : c.xfer.token = .input ∧ c.ep.type = .interrupt
  · exact (actsOn_haltRequest i c cb).of_eq fun s hs => by simp [causeNak, hs, h]
  · exact (actsOn_rearm i c cb).of_eq fun s hs => by simp [causeNak, hs, h]

theorem actsOn_causeAck (i : ChanId) (c : Chan) (cb : Bool) : ActsOn i c cb (causeAck i) := by
  cases ht : c.xfer.token
  case input =>
    by_cases h : c.xfer.lastRx = c.ep.mps ∧ c.xfer.transferred.toNat < c.xfer.length.toNat
    · exact (actsOn_rearm i c cb).of_eq fun s hs => by simp [causeAck, hs, ht, h]
    · exact (ActsOn.nothing i c cb).of_eq fun s hs => by
        simp only [causeAck, hs, ht, h, if_false]
  case ping => exact (ActsOn.modChan i c cb _).of_eq fun s hs => by simp only [causeAck, hs, ht]; rfl
  all_goals exact (ActsOn.nothing i c cb).of_eq fun s hs => by simp only [causeAck, hs, ht]

/-- Every branch of the chain acts on its channel alone (R190 to R200). -/
theorem actsOn_resolveCause (i : ChanId) (w : CauseWord) (c : Chan) (cb : Bool) : ActsOn i c cb (resolveCause i w) := by
  have settled (f : Chan → Chan) : ActsOn i c cb (fun s => haltRequest i (s.modChan i f)) :=
    (actsOn_haltRequest i (f c) cb).after_modChan
  have pick {p : Prop} [Decidable p] {f g : State → State} (hf : ActsOn i c cb f) (hg : ActsOn i c cb g) :
      ActsOn i c cb (fun s => if p then f s else g s) := by
    split <;> assumption
  exact pick (settled _) (pick (settled _) (pick (actsOn_causeNak i c cb) (pick (actsOn_causeAck i c cb)
    (pick (settled _) (pick (settled _) (pick (settled _) (pick (actsOn_causeChh i c cb)
      (actsOn_haltRequest i c cb))))))))

/-- Everything `ChanService` can do (R189, R203): it acts on its own slot, issues strobes and at most one event, and touches
nothing else. -/
theorem actsOn_chanService (i : ChanId) (c : Chan) (cb : Bool) : ActsOn i c cb (chanService i) := by
  have ack {g : State → State} (hg : ActsOn i { c with hcint := 0#11 } cb g) :
      ActsOn i c cb (fun s => g (ackCauses i s)) := hg.after_modChan
  by_cases hp : c.xfer.inProgress = true
  · by_cases ha : c.xfer.active = true
    · by_cases hn : c.seen.getLsbD 6 = true
      · exact (ack (actsOn_resolveCause i c.seen _ cb).after_modChan).of_eq fun s hs => by
          simp only [chanService, hs, hp, ha, hn, Bool.not_true, Bool.false_eq_true, if_false, if_true]; rfl
      · exact (ack (actsOn_resolveCause i c.seen _ cb)).of_eq fun s hs => by
          simp [chanService, hs, hp, ha, -BitVec.getLsbD_eq_getElem, hn]
    · by_cases hh : c.seen.getLsbD 1 = true
      · exact (ack (actsOn_causeChh i _ cb)).of_eq fun s hs => by simp [chanService, hs, hp, ha, hh]
      · exact (ack (actsOn_haltRequest i _ cb)).of_eq fun s hs => by
          simp [chanService, hs, hp, ha, -BitVec.getLsbD_eq_getElem, hh]
  · exact (ack (ActsOn.modChan i _ cb (fun c => { c with hcintmsk := 0#11 }))).of_eq fun s hs => by
      simp [chanService, hs, hp]

end Sys2Proof.Machine
end

