-- ==== Sys2Proof/Laws/PerInstr.lean ====
section
/-! SUPPORT. A statement about every instruction as syntax, one lemma per constructor: its encoded unit has as many words as
its row of spec/opcode_table.json gives it (R101, R102). -/

namespace Sys2Proof.Laws

/-- The words of a unit. -/
def unitWords : Encoded → List Word
  | .cmd ws => ws
  | .gint w => [w]
  | .hcint _ w => [w]
  | .rxsts w => [w]
  | .hprt w => [w]

/-- The `words` column of the table; a cause, source or status row is one word. -/
def rowWords : Instr → Nat
  | .cmdEpCreate _ _ _ _ _ _ _ _ => 2
  | .cmdEpModify _ _ _ _ _ => 2
  | .cmdEpTransfer _ _ _ _ _ _ => 3
  | _ => 1

end Sys2Proof.Laws

/-- The encoded unit has the row's number of words. -/
def Sys2Proof.Laws.UnitLength.Statement (i : Sys2Proof.Instr) : Prop :=
  (Sys2Proof.Laws.unitWords (Sys2Proof.encode i)).length = Sys2Proof.Laws.rowWords i

namespace Sys2Proof.Laws.UnitLength

theorem cmdInitialize (portCb epCb : Bool) (rsv : BitVec 22) : Statement (.cmdInitialize portCb epCb rsv) := rfl
theorem cmdUninitialize (rsv : BitVec 24) : Statement (.cmdUninitialize rsv) := rfl
theorem cmdPowerControl (on : Bool) (rsv : BitVec 23) : Statement (.cmdPowerControl on rsv) := rfl
theorem cmdPortVbus (port : BitVec 8) (on : Bool) (rsv : BitVec 15) : Statement (.cmdPortVbus port on rsv) := rfl
theorem cmdPortReset (port : BitVec 8) (rsv : BitVec 16) : Statement (.cmdPortReset port rsv) := rfl
theorem cmdPortSuspend (port : BitVec 8) (rsv : BitVec 16) : Statement (.cmdPortSuspend port rsv) := rfl
theorem cmdPortResume (port : BitVec 8) (rsv : BitVec 16) : Statement (.cmdPortResume port rsv) := rfl
theorem cmdPortGetState (port : BitVec 8) (rsv : BitVec 16) : Statement (.cmdPortGetState port rsv) := rfl
theorem cmdGetFrameNumber (rsv : BitVec 24) : Statement (.cmdGetFrameNumber rsv) := rfl
theorem cmdEpCreate (devAddr : BitVec 7) (devSpeed : BitVec 2) (epNum : BitVec 4) (epDir : Bool) (epType : BitVec 2) (mps : BitVec 16) (interval : BitVec 8) (rsv : BitVec 16) : Statement (.cmdEpCreate devAddr devSpeed epNum epDir epType mps interval rsv) := rfl
theorem cmdEpModify (handle : BitVec 8) (devAddr : BitVec 7) (devSpeed : BitVec 2) (mps : BitVec 16) (rsv : BitVec 23) : Statement (.cmdEpModify handle devAddr devSpeed mps rsv) := rfl
theorem cmdEpDelete (handle : BitVec 8) (rsv : BitVec 16) : Statement (.cmdEpDelete handle rsv) := rfl
theorem cmdEpReset (handle : BitVec 8) (rsv : BitVec 16) : Statement (.cmdEpReset handle rsv) := rfl
theorem cmdEpTransfer (handle : BitVec 8) (token toggle : BitVec 4) (buf len : Word) (rsv : BitVec 8) : Statement (.cmdEpTransfer handle token toggle buf len rsv) := rfl
theorem cmdEpTransferResult (handle : BitVec 8) (rsv : BitVec 16) : Statement (.cmdEpTransferResult handle rsv) := rfl
theorem cmdEpTransferAbort (handle : BitVec 8) (rsv : BitVec 16) : Statement (.cmdEpTransferAbort handle rsv) := rfl
theorem gintHprtint : Statement .gintHprtint := rfl
theorem gintDiscint : Statement .gintDiscint := rfl
theorem gintRxflvl : Statement .gintRxflvl := rfl
theorem gintHcint : Statement .gintHcint := rfl
theorem gintSof : Statement .gintSof := rfl
theorem hcintXfrc (ch : ChanId) : Statement (.hcintXfrc ch) := rfl
theorem hcintStall (ch : ChanId) : Statement (.hcintStall ch) := rfl
theorem hcintNak (ch : ChanId) : Statement (.hcintNak ch) := rfl
theorem hcintAck (ch : ChanId) : Statement (.hcintAck ch) := rfl
theorem hcintTxerr (ch : ChanId) : Statement (.hcintTxerr ch) := rfl
theorem hcintBberr (ch : ChanId) : Statement (.hcintBberr ch) := rfl
theorem hcintDterr (ch : ChanId) : Statement (.hcintDterr ch) := rfl
theorem hcintChh (ch : ChanId) : Statement (.hcintChh ch) := rfl
theorem hcintNyet (ch : ChanId) : Statement (.hcintNyet ch) := rfl
theorem hcintRsv2 (ch : ChanId) : Statement (.hcintRsv2 ch) := rfl
theorem hcintRsv9 (ch : ChanId) : Statement (.hcintRsv9 ch) := rfl
theorem rxstsInData (chnum : ChanId) (bcnt : BitVec 11) (dpid : BitVec 2) (rsv : BitVec 11) : Statement (.rxstsInData chnum bcnt dpid rsv) := rfl
theorem rxstsInXferDone (chnum : ChanId) (bcnt : BitVec 11) (dpid : BitVec 2) (rsv : BitVec 11) : Statement (.rxstsInXferDone chnum bcnt dpid rsv) := rfl
theorem rxstsToggleErr (chnum : ChanId) (bcnt : BitVec 11) (dpid : BitVec 2) (rsv : BitVec 11) : Statement (.rxstsToggleErr chnum bcnt dpid rsv) := rfl
theorem rxstsChHalted (chnum : ChanId) (bcnt : BitVec 11) (dpid : BitVec 2) (rsv : BitVec 11) : Statement (.rxstsChHalted chnum bcnt dpid rsv) := rfl
theorem rxstsOther (chnum : ChanId) (bcnt : BitVec 11) (dpid : BitVec 2) (pktsts : BitVec 4) (rsv : BitVec 11) : Statement (.rxstsOther chnum bcnt dpid pktsts rsv) := rfl
theorem hprtPcdet : Statement .hprtPcdet := rfl
theorem hprtPenchng (pena : Bool) (pspd : BitVec 2) : Statement (.hprtPenchng pena pspd) := rfl

end Sys2Proof.Laws.UnitLength
end

