-- ==== Sys2Proof/Tests/Slice0.lean ====
section
/-! SUPPORT. Tests: encodings written out from spec/30_encoding.md, single steps with the results of spec/95_test_vectors.md
(its ids stand in the docstrings) or computed by hand from the rule named, and for every statement with hypotheses a state
and operands that meet them together. -/

open Sys2Proof Sys2Proof.Machine Sys2Proof.Claims

namespace Sys2Proof.Tests

/-! ### States -/

/-- S1 of 95_test_vectors.md but for the traces: initialized, connected, all channels free. -/
def conn : State :=
  { State.reset with
    port := ⟨true, .low, false⟩
    hprt := { Hprt.zero with pcsts := true, ppwr := true }
    gintmsk := 0x23000018#32
    irqEn := true
    cbPort := true
    cbEp := true }

/-- Bound by V-E1: addr 1, FULL, endpoint 1 IN, BULK, mps 64. -/
def idle : Chan :=
  { Chan.zero with
    bound := true
    ep := ⟨1, .full, 1, true, .bulk, 64, 0⟩
    hcchar := ⟨64, 1, true, false, .bulk, 1, false, false⟩ }

/-- P1 after its step 2, with `n` bytes received, the last packet of `m`. -/
def enq (n : Word) (m : BitVec 11) : Chan :=
  { idle with
    xfer := ⟨0x20000000, 128, n, .input, .data0, 0, true, true, none, m⟩
    hcchar := { idle.hcchar with chena := true }
    hctsiz := ⟨128, 2, 0, false⟩
    hcintmsk := 0x5BB#11 }

/-- A transfer enqueued, nothing received. -/
def fresh : Chan := enq 0 0

/-- The cause word of a slot. -/
def causes (w : CauseWord) (c : Chan) : Chan := { c with hcint := w }

/-- P2 after its step 2: bulk OUT of 5 bytes. -/
def enqOut (token : Token) : Chan :=
  { idle with
    ep := ⟨5, .high, 2, false, .bulk, 512, 0⟩
    xfer := ⟨0x20001001, 5, 0, token, .data1, 0, true, true, none, 0⟩
    hcchar := ⟨512, 2, false, false, .bulk, 5, false, true⟩
    hcintmsk := 0x0FB#11 }

/-- An interrupt IN channel of reload `r`, parked with a countdown of `n`. -/
def parked (r n : BitVec 16) : Chan :=
  { idle with
    ep := ⟨1, .low, 1, true, .interrupt, 8, r⟩
    xfer := ⟨0x20000100, 8, 0, .input, .data0, n, true, false, none, 0⟩ }

/-- Determined, the halt outstanding. -/
def ending (e : EpEvent) : Chan := (fresh.modXfer (fun x => { x with event := some e })).halting

/-- Channel 0 holds `c`. -/
def st (c : Chan) : State := { conn with chan := conn.chan.set 0 c }

/-- Channel 0 holds `c` and channel 5 holds `d`. -/
def two (c d : Chan) : State := { st c with chan := (st c).chan.set 5 d }

/-- The next input. -/
def send (x : Input) (s : State) : State := { s with inbox := [x] }

/-- One receive entry. -/
def recv (w : Word) (ws : List Word) (s : State) : State := { s with rxstsQ := [w], rxdatQ := ws }

/-- A value of the next state, none if there is no next state. -/
def get {α : Type} (r : Result) (f : State → α) : Option α :=
  match r with
  | .next t => some (f t)
  | .fault _ => none
  | .refused _ => none

/-- The bytes of P2's buffer. -/
def p2mem : Memory := [(0x20001001, 0x11#8), (0x20001002, 0x22#8), (0x20001003, 0x33#8), (0x20001004, 0x44#8), (0x20001005, 0x55#8)]

/-! ### Well-formedness: one ill-formed term per check -/

/-- Every command refuses a reserved bit. -/
theorem test_wf_reserved :
    [Instr.cmdInitialize true true 1, .cmdUninitialize 1, .cmdPowerControl true 1, .cmdPortVbus 0 true 1,
      .cmdPortReset 0 1, .cmdPortSuspend 0 1, .cmdPortResume 0 1, .cmdPortGetState 0 1, .cmdGetFrameNumber 1,
      .cmdEpCreate 1 1 1 true 2 64 0 1, .cmdEpModify 1 1 1 64 1, .cmdEpDelete 1 1, .cmdEpReset 1 1,
      .cmdEpTransfer 1 3 1 0 0 1, .cmdEpTransferResult 1 1, .cmdEpTransferAbort 1 1].map Instr.wf =
      List.replicate 16 false := by decide

/-- Speed 3, packet sizes 0 and 2048, tokens 0 and 5, toggles 0 and 3, a receive code of another row. -/
theorem test_wf_ranges :
    [Instr.cmdEpCreate 1 3 1 true 2 64 0 0, .cmdEpModify 1 1 3 64 0, .cmdEpCreate 1 1 1 true 2 0 0 0,
      .cmdEpCreate 1 1 1 true 2 2048 0 0, .cmdEpModify 1 1 1 0 0, .cmdEpModify 1 1 1 2048 0,
      .cmdEpTransfer 1 0 1 0 0 0, .cmdEpTransfer 1 5 1 0 0 0, .cmdEpTransfer 1 1 0 0 0 0, .cmdEpTransfer 1 1 3 0 0 0,
      .rxstsOther 0 0 0 2 0, .rxstsOther 0 0 0 3 0, .rxstsOther 0 0 0 5 0, .rxstsOther 0 0 0 7 0].map Instr.wf =
      List.replicate 14 false := by decide

/-- The boundary values are legal. -/
theorem test_wf_accepts :
    [Instr.cmdEpCreate 127 2 15 true 3 2047 255 0, .cmdEpModify 16 127 2 1 0, .cmdEpTransfer 255 4 2 0 1 0,
      .cmdEpTransfer 0 1 1 0 0 0, .rxstsOther 15 2047 3 15 2047].map Instr.wf = List.replicate 5 true := by decide

/-! ### Decoding: every constructor, from words written out from the tables -/

theorem test_decode_initialize : decode (.cmd [0x00030001#32]) = .ok (.cmdInitialize true true 0) := by decide
theorem test_decode_initialize_ep_only : decode (.cmd [0x00020001#32]) = .ok (.cmdInitialize false true 0) := by decide
theorem test_decode_uninitialize : decode (.cmd [0x00000002#32]) = .ok (.cmdUninitialize 0) := by decide
theorem test_decode_power_control : decode (.cmd [0x00010003#32]) = .ok (.cmdPowerControl true 0) := by decide
theorem test_decode_port_vbus : decode (.cmd [0x00010210#32]) = .ok (.cmdPortVbus 2 true 0) := by decide
theorem test_decode_port_reset : decode (.cmd [0x00000311#32]) = .ok (.cmdPortReset 3 0) := by decide
theorem test_decode_port_suspend : decode (.cmd [0x00000012#32]) = .ok (.cmdPortSuspend 0 0) := by decide
theorem test_decode_port_resume : decode (.cmd [0x00000013#32]) = .ok (.cmdPortResume 0 0) := by decide
theorem test_decode_port_get_state : decode (.cmd [0x00000114#32]) = .ok (.cmdPortGetState 1 0) := by decide
theorem test_decode_get_frame_number : decode (.cmd [0x00000015#32]) = .ok (.cmdGetFrameNumber 0) := by decide
/-- V-E2. -/
theorem test_decode_ep_create :
    decode (.cmd [0x0C810120#32, 0x00030008#32]) = .ok (.cmdEpCreate 1 0 1 true 3 8 3 0) := by decide
/-- V-C2's frame. -/
theorem test_decode_ep_modify : decode (.cmd [0x00050121#32, 0x00000008#32]) = .ok (.cmdEpModify 1 5 0 8 0) := by decide
theorem test_decode_ep_delete : decode (.cmd [0x00000322#32]) = .ok (.cmdEpDelete 3 0) := by decide
theorem test_decode_ep_reset : decode (.cmd [0x00001023#32]) = .ok (.cmdEpReset 16 0) := by decide
/-- P2's frame. -/
theorem test_decode_ep_transfer :
    decode (.cmd [0x00220124#32, 0x20001001#32, 0x00000005#32]) = .ok (.cmdEpTransfer 1 2 2 0x20001001 5 0) := by decide
theorem test_decode_ep_transfer_result : decode (.cmd [0x00000225#32]) = .ok (.cmdEpTransferResult 2 0) := by decide
theorem test_decode_ep_transfer_abort : decode (.cmd [0x00000126#32]) = .ok (.cmdEpTransferAbort 1 0) := by decide
/-- Two frames in one stream: the length is the opcode's (R102). -/
theorem test_decode_stream : decodeCmd [0x09810120#32, 0x00000040#32, 0x00000015#32] =
    .ok (.cmdEpCreate 1 1 1 true 2 64 0 0, [0x00000015#32]) := by decide
/-- V-E10 and a frame cut short. -/
theorem test_decode_rejects :
    decode (.cmd [0x000000FF#32]) = .error (.unknownOpcode 0xFF) ∧ decode (.cmd [0x00130124#32]) = .error .truncatedFrame ∧
    decode (.gint 0xDCFFFFE7#32) = .error .noSource ∧ decode (.hcint 0 0xFFFFF800#32) = .error .noCause ∧
    decode (.hprt 0xFFFFFFF5#32) = .error .noPortCause := by decide
theorem test_decode_hprtint : decode (.gint 0x01000000#32) = .ok .gintHprtint := by decide
theorem test_decode_discint : decode (.gint 0x20000000#32) = .ok .gintDiscint := by decide
theorem test_decode_rxflvl : decode (.gint 0x00000010#32) = .ok .gintRxflvl := by decide
theorem test_decode_gint_hcint : decode (.gint 0x02000000#32) = .ok .gintHcint := by decide
theorem test_decode_sof : decode (.gint 0x00000008#32) = .ok .gintSof := by decide
/-- The order of the passes (R222). -/
theorem test_decode_passes :
    decodeGint 0x23000018#32 = [.gintHprtint, .gintDiscint, .gintRxflvl, .gintHcint, .gintSof] := by decide
theorem test_decode_xfrc : decode (.hcint 0 0x001#32) = .ok (.hcintXfrc 0) := by decide
theorem test_decode_stall : decode (.hcint 1 0x008#32) = .ok (.hcintStall 1) := by decide
theorem test_decode_nak : decode (.hcint 2 0x010#32) = .ok (.hcintNak 2) := by decide
theorem test_decode_ack : decode (.hcint 3 0x020#32) = .ok (.hcintAck 3) := by decide
theorem test_decode_txerr : decode (.hcint 4 0x080#32) = .ok (.hcintTxerr 4) := by decide
theorem test_decode_bberr : decode (.hcint 5 0x100#32) = .ok (.hcintBberr 5) := by decide
theorem test_decode_dterr : decode (.hcint 6 0x400#32) = .ok (.hcintDterr 6) := by decide
theorem test_decode_chh : decode (.hcint 7 0x002#32) = .ok (.hcintChh 7) := by decide
theorem test_decode_nyet : decode (.hcint 8 0x040#32) = .ok (.hcintNyet 8) := by decide
theorem test_decode_rsv2 : decode (.hcint 9 0x004#32) = .ok (.hcintRsv2 9) := by decide
theorem test_decode_rsv9 : decode (.hcint 15 0x200#32) = .ok (.hcintRsv9 15) := by decide
/-- The priorities of R190: each word holds a bit and all bits that give way to it. -/
theorem test_decode_priority :
    [0x7FF#32, 0x7FE#32, 0x7F6#32, 0x7E6#32, 0x7C6#32, 0x746#32, 0x646#32, 0x246#32].map (decodeHcint 0) =
      [some (.hcintXfrc 0), some (.hcintStall 0), some (.hcintNak 0), some (.hcintAck 0), some (.hcintTxerr 0),
        some (.hcintBberr 0), some (.hcintDterr 0), some (.hcintChh 0)] := by decide
/-- V-F1's status word. -/
theorem test_decode_in_data : decode (.rxsts 0x00040030#32) = .ok (.rxstsInData 0 3 0 0) := by decide
theorem test_decode_in_xfer_done : decode (.rxsts 0x00060000#32) = .ok (.rxstsInXferDone 0 0 0 0) := by decide
theorem test_decode_toggle_err : decode (.rxsts 0x000B7FF3#32) = .ok (.rxstsToggleErr 3 2047 2 0) := by decide
/-- V-F6's status word. -/
theorem test_decode_ch_halted : decode (.rxsts 0x000E0040#32) = .ok (.rxstsChHalted 0 4 0 0) := by decide
theorem test_decode_rx_other : decode (.rxsts 0x003E001F#32) = .ok (.rxstsOther 15 1 0 15 1) := by decide
theorem test_decode_pcdet : decode (.hprt 0x00001003#32) = .ok .hprtPcdet := by decide
/-- P5 step 5's port word. -/
theorem test_decode_penchng : decode (.hprt 0x0002100D#32) = .ok (.hprtPenchng true 1) := by decide
/-- The table's words: a command, a source, a cause and a receive class. -/
theorem test_decode_table :
    decodeTableWord 32 0x20 = some (.cmdEpCreate 0 0 0 false 0 0 0 0) ∧ decodeTableWord 32 0x20000000 = some .gintDiscint ∧
    decodeTableWord 16 0x400 = some (.hcintDterr 0) ∧ decodeTableWord 24 0x0A0000 = some (.rxstsToggleErr 0 0 0 0) := by
  decide

/-! ### A table word placed is the next instruction -/

/-- A command word, from reset. -/
theorem test_place_command :
    get (step (State.reset.withFetchWord 32 0x15)) (fun t => (t.resq, t.inbox)) = some ([0#32], []) := by decide
/-- The disconnect source, from reset. -/
theorem test_place_source :
    get (step (State.reset.withFetchWord 32 0x20000000)) (fun t => (t.discLatch, t.port.connected, t.inbox)) =
      some (false, false, []) := by decide
/-- The STALL cause, from reset: the event is determined (R192). -/
theorem test_place_cause :
    get (step (State.reset.withFetchWord 8 0x08)) (fun t => (t.slot 0).xfer.event) = some (some .handshakeStall) := by
  decide +kernel
/-- A receive class, from reset: the status word is popped. -/
theorem test_place_receive :
    get (step (State.reset.withFetchWord 24 0x060000)) (fun t => (t.rxstsQ, t.inbox)) = some ([], []) := by decide

/-! ### One step per instruction -/

/-- V-P7: only the endpoint sink is attached. -/
theorem test_initialize :
    get (exec (.cmdInitialize false true 0) { State.reset with draws := [true] })
      (fun t => (t.cbPort, t.cbEp, t.gintmsk, t.irqEn, t.resq)) = some (false, true, 0x23000018#32, true, [0#32]) := by decide
/-- V-P8. -/
theorem test_initialize_timeout :
    get (exec (.cmdInitialize true true 0) { State.reset with draws := [false] }) id =
      some { State.reset with resq := [0xFFFFFFFD#32] } := by decide
/-- V-D4: nothing is unmasked any more. -/
theorem test_uninitialize :
    get (exec (.cmdUninitialize 0) { st fresh with sofLatch := true })
      (fun t => (irqLine t, (t.slot 0).hcintmsk, t.resq)) = some (false, 0x5BB#11, [0#32]) := by decide
/-- V-P9: the halt confirmation is lost. -/
theorem test_power_control :
    get (exec (.cmdPowerControl true 0) (st (causes 0x002#11 (ending .transferComplete))))
      (fun t => ((t.slot 0).hcint, irqLine t, (t.slot 0).xfer.inProgress)) = some (0#11, false, true) := by decide
/-- V-P5. -/
theorem test_port_vbus :
    get (exec (.cmdPortVbus 0 false 0) conn) (fun t => (t.hprt.toWord, t.resq)) = some (0x00000001#32, [0#32]) := by decide
/-- P5 step 1. -/
theorem test_port_reset :
    get (exec (.cmdPortReset 0 0) conn) (fun t => (t.hprt.toWord, t.port.portReset, t.resq)) =
      some (0x00001101#32, true, []) := by decide
/-- P5 step 4. -/
theorem test_reset_end :
    get (step (send .resetEnd { driveReset true conn with draws := [true] })) (fun t => (t.hprt.toWord, t.resq)) =
      some (0x00001001#32, [0#32]) := by decide
/-- V-P6. -/
theorem test_port_suspend :
    get (exec (.cmdPortSuspend 0 0) conn) (fun t => (t.hprt.toWord, t.resq)) = some (0x00001081#32, [0#32]) := by decide
/-- V-P6. -/
theorem test_port_resume :
    get (exec (.cmdPortResume 0 0) { conn with hprt := { conn.hprt with psusp := true } })
      (fun t => (t.hprt.toWord, t.resq)) = some (0x00001041#32, [0#32]) := by decide
/-- V-P3. -/
theorem test_port_get_state :
    get (exec (.cmdPortGetState 0 0) { conn with port := ⟨true, .high, false⟩ }) id =
      some { conn with port := ⟨true, .high, false⟩, resq := [5#32] } := by decide
/-- V-E17. -/
theorem test_port_get_state_bad_port : get (exec (.cmdPortGetState 1 0) conn) State.resq = some [0#32] := by decide
/-- P3 step 12. -/
theorem test_get_frame_number :
    get (exec (.cmdGetFrameNumber 0) { conn with frnum := 102 }) State.resq = some [0x66#32] := by decide
/-- P1 step 1. -/
theorem test_ep_create :
    get (exec (.cmdEpCreate 1 1 1 true 2 64 0 0) conn) (fun t => (t.resq, (t.slot 0).hcchar.toWord, (t.slot 0).ep.reload)) =
      some ([1#32], 0x00488840#32, 0#16) := by decide
/-- T1: the seventeenth has no channel. -/
theorem test_ep_create_full :
    get (exec (.cmdEpCreate 1 1 1 true 2 64 0 0) (conn.mapChans (fun _ => idle))) State.resq = some [0#32] := by decide
/-- V-C2. -/
theorem test_ep_modify :
    get (exec (.cmdEpModify 1 5 0 8 0) (st idle)) (fun t => (t.resq, (t.slot 0).hcchar.toWord)) =
      some ([0#32], 0x014A8808#32) := by decide
/-- V-C3. -/
theorem test_ep_modify_in_flight :
    get (exec (.cmdEpModify 1 5 1 64 0) (st fresh))
      (fun t => (t.hwq, (t.slot 0).hcchar.toWord, (t.slot 0).hcintmsk, (t.slot 0).xfer.active, (t.slot 0).xfer.inProgress)) =
      some ([.disable 0], 0xC1488840#32, 0x002#11, false, true) := by decide
/-- V-C4. -/
theorem test_ep_delete :
    get (exec (.cmdEpDelete 1 0) (st fresh))
      (fun t => (t.resq, t.hwq, (t.slot 0).bound, (t.slot 0).hcchar.toWord, (t.slot 0).hcintmsk)) =
      some ([0#32], [.disable 0], false, 0xC0000000#32, 0#11) := by decide
/-- V-E16. -/
theorem test_ep_delete_free :
    get (exec (.cmdEpDelete 3 0) (st fresh)) id = some { st fresh with resq := [0xFFFFFFFB#32] } := by decide
/-- R147. -/
theorem test_ep_reset :
    get (exec (.cmdEpReset 1 0) (st fresh)) (fun t => (t.resq, t.hwq, (t.slot 0).xfer.active, (t.slot 0).bound)) =
      some ([0#32], [.disable 0], false, true) := by decide
/-- P1 step 2. -/
theorem test_ep_transfer_in :
    get (exec (.cmdEpTransfer 1 3 1 0x20000000 128 0) (st idle)) id =
      some { st fresh with resq := [0#32], hwq := [.enable 0] } := by decide
/-- P2 step 2. -/
theorem test_ep_transfer_out :
    get (exec (.cmdEpTransfer 1 2 2 0x20001001 5 0)
        { st { enqOut .none with hcchar := ⟨512, 2, false, false, .bulk, 5, false, false⟩, xfer := .zero } with mem := p2mem })
      (fun t => (t.tx 0, (t.slot 0).hctsiz.toWord, (t.slot 0).hcchar.toWord, (t.slot 0).hcintmsk)) =
      some ([0x44332211#32, 0x00000055#32], 0x40080005#32, 0x81481200#32, 0x0FB#11) := by decide
/-- P1 step 10. -/
theorem test_ep_transfer_result : get (exec (.cmdEpTransferResult 1 0) (st (enq 128 64))) State.resq = some [128#32] := by
  decide
/-- V-K21: the second abort issues no strobe. -/
theorem test_ep_transfer_abort :
    get (exec (.cmdEpTransferAbort 1 0) (st fresh)) (fun t => (t.hwq, (t.slot 0).hcintmsk, (t.slot 0).xfer.inProgress)) =
      some ([.disable 0], 0x002#11, true) ∧
    get (exec (.cmdEpTransferAbort 1 0) (st (afterAbort fresh))) State.hwq = some [] := by decide
/-- P5 step 6. -/
theorem test_hprtint :
    get (exec .gintHprtint { conn with hprt := ⟨true, false, true, true, false, false, false, true, 1⟩ })
      (fun t => (t.hprt.toWord, t.port.speed, t.evq)) = some (0x00021005#32, .full, [.port .reset]) := by decide
/-- P4 step 6, pass 2. -/
theorem test_discint :
    get (exec .gintDiscint { st fresh with discLatch := true })
      (fun t => ((t.slot 0).hcchar.toWord, (t.slot 0).hcintmsk, (t.slot 0).xfer.active, t.port.connected, t.evq)) =
      some (0x80488840#32, 0x5BB#11, false, false, [.port .disconnect]) := by decide
/-- V-F1. -/
theorem test_rxflvl :
    get (exec .gintRxflvl (recv 0x00040030 [0xEECCBBAA] (st fresh)))
      (fun t => (t.mem, (t.slot 0).xfer.transferred, (t.slot 0).xfer.lastRx, t.gintmsk)) =
      some ([(0x20000000, 0xAA#8), (0x20000001, 0xBB#8), (0x20000002, 0xCC#8)], 3#32, 3#11, 0x23000018#32) := by decide
/-- V-D3: two channels confirm their halts, and both events are delivered in scan order. -/
theorem test_gint_hcint :
    get (exec .gintHcint (two (causes 0x002#11 (ending .transferComplete)) (causes 0x002#11 (ending .transferComplete))))
      (fun t => (t.evq, (t.slot 0).xfer.active, (t.slot 5).hcintmsk)) =
      some ([.ep 1 .transferComplete, .ep 6 .transferComplete], false, 0#11) := by decide +kernel
/-- Strobes of two services in one pass, in scan order: NAK re-arms channel 0, XFRC halts channel 5 (R191, R193, R226). -/
theorem test_gint_hcint_strobes :
    get (exec .gintHcint (two (causes 0x010#11 fresh) (causes 0x001#11 fresh))) (fun t => (t.hwq, t.evq)) =
      some ([.enable 0, .disable 5], []) := by decide +kernel
/-- P3 step 7. -/
theorem test_sof :
    get (exec .gintSof (st (parked 3 1)))
      (fun t => ((t.slot 0).hctsiz.toWord, (t.slot 0).hcintmsk, (t.slot 0).xfer.countdown, t.hwq)) =
      some (0x00080008#32, 0x5BB#11, 3#16, [.enable 0]) := by decide +kernel
/-- V-S1. -/
theorem test_sof_waits :
    get (exec .gintSof (st (parked 3 3))) (fun t => ((t.slot 0).xfer.countdown, t.hwq)) = some (2#16, []) := by decide +kernel
/-- P1 step 6: `hcchar` and the event. -/
theorem test_xfrc :
    get (exec (.hcintXfrc 0) (st (enq 128 64))) (fun t => ((t.slot 0).hcchar.toWord, (t.slot 0).xfer.event, t.hwq)) =
      some (0xC0488840#32, some .transferComplete, [.disable 0]) := by decide
/-- V-K13, with the length of P1. -/
theorem test_xfrc_fixup :
    get (exec (.hcintXfrc 0) (st fresh)) (fun t => (t.slot 0).xfer.transferred) = some 128#32 := by decide
/-- T5. -/
theorem test_stall :
    get (exec (.hcintStall 0) (st (enq 64 64)))
      (fun t => ((t.slot 0).xfer.event, (t.slot 0).xfer.transferred, (t.slot 0).hcintmsk)) =
      some (some .handshakeStall, 64#32, 0x002#11) := by decide
/-- V-K2 and P3 step 4. -/
theorem test_nak :
    get (exec (.hcintNak 0) (st fresh)) State.hwq = some [.enable 0] ∧
    get (exec (.hcintNak 0) (st (parked 3 3))) (fun t => (t.hwq, (t.slot 0).hcintmsk)) = some ([.disable 0], 0x002#11) := by
  decide
/-- V-K10. -/
theorem test_ack : get (exec (.hcintAck 0) (st (enq 64 64))) State.hwq = some [.enable 0] := by decide
/-- V-K11, V-K12, V-K4 and P6 step 3. -/
theorem test_ack_quiet :
    get (exec (.hcintAck 0) (st (enq 70 6))) id = some (st (enq 70 6)) ∧ get (exec (.hcintAck 0) (st (enq 128 64))) id = some (st (enq 128 64)) ∧
    get (exec (.hcintAck 0) (st (enqOut .out))) id = some (st (enqOut .out)) ∧
    get (exec (.hcintAck 0) (st (enqOut .ping))) id = some (st (enqOut .out)) := by decide
/-- V-K9. -/
theorem test_txerr :
    get (exec (.hcintTxerr 0) (st (enqOut .out))) (fun t => ((t.slot 0).xfer.event, t.hwq)) =
      some (some .busError, [.disable 0]) := by decide
/-- V-K7. -/
theorem test_bberr :
    get (exec (.hcintBberr 0) (st fresh)) (fun t => ((t.slot 0).xfer.event, t.hwq)) = some (some .busError, [.disable 0]) := by
  decide
/-- V-K8. -/
theorem test_dterr :
    get (exec (.hcintDterr 0) (st fresh)) (fun t => ((t.slot 0).xfer.event, t.hwq)) = some (some .busError, [.disable 0]) := by
  decide
/-- V-K16. -/
theorem test_chh_parks :
    get (exec (.hcintChh 0) (st fresh))
      (fun t => ((t.slot 0).xfer.inProgress, (t.slot 0).xfer.active, (t.slot 0).hcintmsk, t.evq)) =
      some (false, true, 0#11, []) := by decide
/-- V-K5: the mark, and the word NYET alone served: mark and fall-through. -/
theorem test_nyet :
    get (exec (.hcintNyet 0) (st (enqOut .out))) (fun t => ((t.slot 0).xfer.event, t.hwq)) = some (some .handshakeNyet, []) ∧
    (chanService 0 (st (causes 0x040#11 (enqOut .out)))).hwq = [.disable 0] := by decide
/-- V-K6: the mark, then STALL. -/
theorem test_nyet_then_stall :
    ((chanService 0 (st (causes 0x048#11 (enqOut .out)))).slot 0).xfer.event = some .handshakeStall := by decide
/-- V-K20. -/
theorem test_rsv2 : get (exec (.hcintRsv2 0) (st (enqOut .out))) State.hwq = some [.disable 0] := by decide
/-- R200. -/
theorem test_rsv9 :
    get (exec (.hcintRsv9 0) (st (enqOut .out))) (fun t => (t.hwq, (t.slot 0).xfer.event)) = some ([.disable 0], none) := by
  decide
/-- V-F3's clamp, with the length of P1: 126 received, 5 arrive, 2 are stored. -/
theorem test_in_data_clamped :
    get (exec (.rxstsInData 0 5 0 0) { st (enq 126 64) with rxdatQ := [0x04030201, 0x00000005] })
      (fun t => (t.mem, (t.slot 0).xfer.transferred, (t.slot 0).xfer.lastRx, t.rxdatQ)) =
      some ([(0x2000007E, 0x01#8), (0x2000007F, 0x02#8)], 128#32, 5#11, []) := by decide
/-- V-F7. -/
theorem test_in_data_dropped :
    get (exec (.rxstsInData 0 4 0 0) { st (enqOut .out) with rxdatQ := [0x04030201] }) id = some (st (enqOut .out)) := by decide
/-- V-F5. -/
theorem test_in_xfer_done :
    get (exec .gintRxflvl (recv 0x00060000 [7] (st fresh))) id = some { st fresh with rxdatQ := [7] } := by decide
/-- R165. -/
theorem test_toggle_err :
    get (exec .gintRxflvl (recv 0x000A0040 [7] (st fresh))) id = some { st fresh with rxdatQ := [7] } := by decide
/-- V-F6. -/
theorem test_ch_halted :
    get (exec .gintRxflvl (recv 0x000E0040 [7] (st fresh))) id = some { st fresh with rxdatQ := [7] } := by decide
/-- R165: code 0. -/
theorem test_rx_other :
    get (exec .gintRxflvl (recv 0x00000040 [7] (st fresh))) id = some { st fresh with rxdatQ := [7] } := by decide
/-- The connect of S1, and P5 step 3: none under the guard. -/
theorem test_pcdet :
    get (exec .hprtPcdet State.reset) (fun t => (t.port.connected, t.evq)) = some (true, []) ∧
    get (exec .hprtPcdet conn) State.evq = some [.port .connect] ∧
    get (exec .hprtPcdet (driveReset true conn)) State.evq = some [] := by decide
/-- V-P1, V-P2, V-P3. -/
theorem test_penchng :
    get (exec (.hprtPenchng false 0) conn) (fun t => (t.port.speed, t.evq)) = some (.low, []) ∧
    get (exec (.hprtPenchng true 3) conn) (fun t => (t.port.speed, t.evq)) = some (.low, [.port .reset]) ∧
    get (exec (.hprtPenchng true 0) conn) (fun t => (t.port.speed, t.evq)) = some (.high, [.port .reset]) := by decide
/-- V-D1: all five sources in one invocation. -/
theorem test_all_sources :
    get (step (send .irq (recv 0x00040040 [0x04030201] { st (causes 0x001#11 fresh) with
        hprt := { conn.hprt with pcdet := true }, discLatch := true, sofLatch := true })))
      (fun t => (t.evq, t.mem, t.hwq)) = some ([.port .connect, .port .disconnect], [], []) := by decide +kernel

/-! ### Witnesses: a state and operands that meet the hypotheses of each statement -/

/-- Every slot bound. -/
def full : State := conn.mapChans (fun _ => idle)

/-- P5 between its steps 1 and 4. -/
def guarded : State := driveReset true conn

/-- Channel 0 shows the causes `w` to the next invocation. -/
def serving (w : CauseWord) (c : Chan) : State := send .irq (st (causes w c))

theorem witness_DecodeOfEncodeIsTheInstruction :
    (Instr.cmdEpCreate 127 2 15 true 3 2047 255 0).wf = true ∧ (Instr.rxstsOther 15 2047 3 15 2047).wf = true := by decide

theorem witness_EncodeOfDecodeIsTheFrame :
    decodeCmd [0xFF130124#32, 0x20000000#32, 0x00000080#32, 0x00000015#32] =
      .ok (.cmdEpTransfer 1 3 1 0x20000000 128 255, [0x00000015#32]) := by decide

theorem witness_StepRunsTheDecodedCommand :
    (send (.command [0x09810120, 0x40, 0x15]) conn).inbox = .command [0x09810120, 0x40, 0x15] :: [] ∧
    conn.port.portReset = false ∧
    decodeCmd [0x09810120#32, 0x40#32, 0x15#32] = .ok (.cmdEpCreate 1 1 1 true 2 64 0 0, [0x15#32]) := by decide

theorem witness_UnknownOpcodeReturnsParam :
    (send (.command [0xFF, 0x15]) conn).inbox = .command (0xFF :: [0x15]) :: [] ∧ conn.port.portReset = false ∧
    opOfCode (field 0xFF#32 0 8) = none := by decide

theorem witness_InterruptStepRunsTheDecodedPasses :
    (send .irq { conn with sofLatch := true }).inbox = .irq :: [] ∧
    irqLine (send .irq { conn with sofLatch := true }) = true := by decide +kernel

theorem witness_PassesRunTheDecodedWords :
    (recv 0x00040030 [0xEECCBBAA] (st fresh)).rxstsQ = 0x00040030 :: [] := by decide

theorem witness_InterruptStepRunsTheResolvedCause :
    let s := serving 0x048#11 (enqOut .out)
    s.inbox = .irq :: [] ∧ s.irqEn = true ∧ snapshot s = 0x02000000#32 ∧ (∀ j, j ≠ 0 → (s.slot j).pending = false) ∧
    (s.slot 0).xfer.inProgress = true ∧ (s.slot 0).xfer.active = true ∧ firstCause 0 (s.slot 0).seen = some (.hcintStall 0) ∧
    (0x7BF#11).getLsbD 6 = false := by decide +kernel

/-- The four cases, each by the state it is about: V-K18, V-K17, a second abort before the halt, V-K5. -/
theorem witness_ServiceWithoutAResolvedCause :
    (((st idle).slot 0).xfer.inProgress = false) ∧
    (((st (causes 0x002#11 (afterAbort fresh))).slot 0).xfer.inProgress = true ∧
      ((st (causes 0x002#11 (afterAbort fresh))).slot 0).xfer.active = false ∧
      ((st (causes 0x002#11 (afterAbort fresh))).slot 0).seen.getLsbD 1 = true) ∧
    (((st (causes 0x001#11 (afterAbort fresh))).slot 0).xfer.inProgress = true ∧
      ((st (causes 0x001#11 (afterAbort fresh))).slot 0).xfer.active = false ∧
      ((st (causes 0x001#11 (afterAbort fresh))).slot 0).seen.getLsbD 1 = false) ∧
    (((st (causes 0x040#11 (enqOut .out))).slot 0).xfer.inProgress = true ∧
      ((st (causes 0x040#11 (enqOut .out))).slot 0).xfer.active = true ∧
      ((st (causes 0x040#11 (enqOut .out))).slot 0).seen = 0x040#11) := by decide

theorem witness_DisabledInputsAreRefused :
    ((send .irq conn).inbox = .irq :: [] ∧ irqLine (send .irq conn) = false) ∧
    ((send (.command [0x15]) guarded).inbox = .command [0x15] :: [] ∧
      (send (.command [0x15]) guarded).port.portReset = true) ∧
    ((send .resetEnd conn).inbox = .resetEnd :: [] ∧ (send .resetEnd conn).port.portReset = false) ∧
    ((send (.linkHalted 0) (st fresh)).inbox = .linkHalted 0 :: [] ∧
      ((send (.linkHalted 0) (st fresh)).slot 0).hcchar.chdis = false) := by decide +kernel

theorem witness_LinkCausesAndHaltConfirmations :
    (send (.linkCause 0 0x7FF) (st fresh)).inbox = .linkCause 0 0x7FF :: [] ∧
    (send (.linkHalted 0) (st (ending .busError))).inbox = .linkHalted 0 :: [] ∧
    ((send (.linkHalted 0) (st (ending .busError))).slot 0).hcchar.chdis = true := by decide

theorem witness_LinkQueuesFramesAndPort :
    (send (.linkRx 0x00040040 [1]) conn).inbox = .linkRx 0x00040040 [1] :: [] ∧
    (send (.linkSof 0xFFFF) conn).inbox = .linkSof 0xFFFF :: [] ∧
    (send (.linkPort true true true true 3) conn).inbox = .linkPort true true true true 3 :: [] ∧
    (send .linkDisconnect conn).inbox = .linkDisconnect :: [] := by decide

theorem witness_ClientStoreWritesOneByte :
    (send (.clientStore 0x20001003 0) { conn with mem := p2mem }).inbox = .clientStore 0x20001003 0 :: [] ∧
    Memory.wf p2mem = true := by decide

/-- Down to the boundary in a slot in flight and in a free one; up by one in each field. -/
theorem witness_LinkCountsSizeWordsDown :
    (send (.linkCount 0 128 2) (st fresh)).inbox = .linkCount 0 128 2 :: [] ∧
    ((128#19).toNat ≤ ((st fresh).slot 0).hctsiz.xfrsiz.toNat ∧ (2#10).toNat ≤ ((st fresh).slot 0).hctsiz.pktcnt.toNat) ∧
    ((0#19).toNat ≤ ((st fresh).slot 1).hctsiz.xfrsiz.toNat ∧ (0#10).toNat ≤ ((st fresh).slot 1).hctsiz.pktcnt.toNat) ∧
    ((st fresh).slot 0).hctsiz.xfrsiz.toNat < (129#19).toNat ∧ ((st fresh).slot 0).hctsiz.pktcnt.toNat < (3#10).toNat := by
  decide

theorem witness_PowerOnResetRestoresTheTable :
    (send .powerOnReset { st fresh with mem := p2mem }).inbox = .powerOnReset :: [] := by decide

/-- The claim's slots, decided one by one. -/
theorem inv_slots_of_all {s : State}
    (h : ∀ i : ChanId, seqState (s.slot i) ≠ .outside ∧
      ((s.slot i).bound = false → (s.slot i).xfer.active = false ∧ (s.slot i).xfer.inProgress = false ∧
        (s.slot i).xfer.event = none ∧ (s.slot i).hcintmsk = 0#11) ∧
      (s.slot i).xfer.transferred.toNat ≤ (s.slot i).xfer.length.toNat ∧
      ((s.slot i).bound = true → (s.slot i).ep.mps ≠ 0#11) ∧
      ((s.slot i).xfer.active = true → (s.slot i).xfer.token ≠ .none ∧ (s.slot i).xfer.toggle ≠ .none) ∧
      (s.slot i).xfer.countdown.toNat ≤ (s.slot i).ep.reload.toNat ∧
      ((s.slot i).xfer.event = none ∨ (s.slot i).xfer.event = some .handshakeNyet ∨
        (s.slot i).hcintmsk = Config.maskHalt) ∧
      ((s.slot i).xfer.active = true → (s.slot i).xfer.inProgress = false → (s.slot i).hcintmsk = 0#11)) :
    ∀ i, (s.slot i).Good :=
  fun i =>
    let ⟨a, b, c, d, e, f, g, k⟩ := h i
    ⟨a, b, c, d, e, f, g, k⟩

/-- A state in mid-transfer, with an invocation next: not reset, and not the state any clause is trivial in. -/
theorem witness_StepKeepsTheInvariant :
    (serving 0x001#11 (enq 128 64)).Inv ∧ ∃ t, step (serving 0x001#11 (enq 128 64)) = .next t :=
  ⟨⟨inv_slots_of_all (by decide), by decide, by decide, by decide, by decide⟩, ⟨_, rfl⟩⟩

theorem witness_StepOnlyAddsToTheTraces :
    notReset (serving 0x001#11 (enq 128 64)) ∧ ∃ t, step (serving 0x001#11 (enq 128 64)) = .next t :=
  ⟨by unfold notReset; decide, ⟨_, rfl⟩⟩

theorem witness_NothingIsServedBeforeStartUp :
    let s := send (.linkSof 7) State.reset
    s.irqEn = false ∧ s.gintmsk = 0#32 ∧ (∀ ws, s.inbox.head? ≠ some (.command ws)) ∧ notReset s ∧
      ∃ t, step s = .next t :=
  ⟨rfl, rfl, by intro ws; simp [send], by simp [notReset, send], ⟨_, rfl⟩⟩

theorem witness_CommandsEmitNoEvent : isCommand (.cmdEpDelete 1 0) = true := by decide

/-- One command for each of the three words: PARAM, INVALID, BUSY. -/
theorem witness_ErrorReturnsChangeNothing :
    isCommand (.cmdEpTransfer 1 3 1 0x20000000 8 0) = true ∧ isCommand (.cmdEpDelete 0 0) = true ∧
    get (exec (.cmdEpDelete 0 0) conn) State.resq = some (conn.resq ++ [0xFFFFFFFB#32]) ∧
    get (exec (.cmdEpTransfer 1 3 1 0x20000000 8 0) { st idle with port := ⟨false, .low, false⟩ }) State.resq =
      some ((st idle).resq ++ [0xFFFFFFFF#32]) ∧
    get (exec (.cmdEpTransfer 1 3 1 0x20000000 8 0) (st fresh)) State.resq = some ((st fresh).resq ++ [0xFFFFFFFE#32]) := by
  decide

theorem witness_EngineNeverRaisesACause : ∃ t, exec (.hcintStall 0) (st (causes 0x7FF#11 fresh)) = .next t := ⟨_, rfl⟩

/-- Both ways a toggle changes. -/
theorem witness_ToggleIsWrittenOnlyByTransfers :
    get (exec (.cmdEpTransfer 1 3 1 0x20000000 128 0) (st idle)) (fun t => decide ((t.slot 0).xfer.toggle ≠ idle.xfer.toggle)) =
      some true ∧
    get (exec (.cmdEpDelete 1 0) (st fresh)) (fun t => decide ((t.slot 0).xfer.toggle ≠ fresh.xfer.toggle)) = some true := by
  decide

theorem witness_EndpointIdentityIsImmutable :
    ((st fresh).slot 0).bound = true ∧
    get (exec (.cmdEpModify 1 5 0 8 0) (st fresh)) (fun t => (t.slot 0).bound) = some true ∧
    get (exec (.hcintStall 0) (st fresh)) (fun t => (t.slot 0).bound) = some true := by decide

theorem witness_OnlyTheReceivePathWritesMemory :
    (∃ t, exec (.hcintXfrc 0) (st fresh) = .next t) ∧ Instr.hcintXfrc 0 ≠ .gintRxflvl ∧
    ∀ ch bcnt dpid rsv, Instr.hcintXfrc 0 ≠ .rxstsInData ch bcnt dpid rsv :=
  ⟨⟨_, rfl⟩, by decide, by intros; simp⟩

theorem witness_InvocationEventsAreOrdered :
    let s := serving 0x002#11 (ending .transferComplete)
    s.inbox = .irq :: [] ∧ (∃ t, step s = .next t) ∧
    (∃ t, exec .gintRxflvl (recv 0x00060000 [] conn) = .next t) ∧ ∃ t, exec .gintSof conn = .next t :=
  ⟨rfl, ⟨_, rfl⟩, ⟨_, rfl⟩, ⟨_, rfl⟩⟩

/-- Both draws, and a reserved bit. -/
theorem witness_StartUpClearsAndAttaches :
    (1#22 ≠ 0) ∧ (0#22 = 0) ∧ State.drawnBit { State.reset with draws := [true] } = true ∧
    State.drawnBit { State.reset with draws := [false] } = false := by decide

theorem witness_PowerControlClearsPendingCausesWhenOn : (0x400000#23 ≠ 0) ∧ (0#23 = 0) := by decide

theorem witness_ResetEndClearsGuardAndSignal :
    (send .resetEnd guarded).inbox = .resetEnd :: [] ∧ (send .resetEnd guarded).port.portReset = true := by decide

/-- Each reason of a refusal alone; the lowest free channel at index 0, and at index 15; the packet size at both ends of its
range. -/
theorem witness_CreateBindsTheLowestFreeChannel :
    ((0x8000#16 ≠ 0) ∧ (3#2 = 3#2) ∧ ((0#16).toNat = 0) ∧ (2047 < (2048#16).toNat) ∧ ∀ i, (full.slot i).bound = true) ∧
    (2#2 ≠ 3#2 ∧ 1 ≤ (1#16).toNat ∧ (2047#16).toNat ≤ 2047) ∧
    ((conn.slot 0).bound = false ∧ ∀ j, j < 0 → (conn.slot j).bound = true) ∧
    (((full.modChan 15 (fun _ => Chan.zero)).slot 15).bound = false ∧
      ∀ j, j < 15 → ((full.modChan 15 (fun _ => Chan.zero)).slot j).bound = true) := by decide

/-- Each reason of a refusal alone; a handle of a channel in flight. -/
theorem witness_ModifyAbortsThenRewrites :
    ((1#23 ≠ 0) ∧ (∀ i, ¬ Names conn 1 i) ∧ (3#2 = 3#2) ∧ ((0#16).toNat = 0) ∧ (2047 < (2048#16).toNat)) ∧
    Names (st fresh) 1 0 ∧ (0#2 ≠ 3#2) ∧ 1 ≤ (1#16).toNat ∧ (2047#16).toNat ≤ 2047 := by unfold Names; decide

/-- A reserved bit; handles 0 and 17; a free channel; the handles at both ends of their range. -/
theorem witness_DeleteResetAndAbortStopTheChannel :
    ((1#16 ≠ 0) ∧ (∀ i, ¬ Names full 0 i) ∧ (∀ i, ¬ Names full 17 i) ∧ (∀ i, ¬ Names (st idle) 3 i)) ∧
    Names full 1 0 ∧ Names full 16 15 := by unfold Names; decide

/-- The refusals: each PARAM reason at its boundary; INVALID; BUSY for an active transfer and for a halting one. -/
theorem witness_TransferProgramsTheChannel_refusals :
    (0x80#8 ≠ 0) ∧ (∀ i, ¬ Names conn 1 i) ∧ ((0#4).toNat = 0) ∧ (4 < (5#4).toNat) ∧ (2 < (3#4).toNat) ∧
    (0#32 = 0 ∧ 1#32 ≠ 0) ∧
    (Names (st idle) 1 0 ∧ 1 ≤ (4#4).toNat ∧ (4#4).toNat ≤ 4 ∧ 1 ≤ (2#4).toNat ∧ (2#4).toNat ≤ 2 ∧
      (0#32 ≠ 0 ∨ 0#32 = 0)) ∧
    (({ st idle with port := ⟨false, .low, false⟩ } : State).port.connected = false) ∧
    ((st fresh).port.connected = true ∧ ((st fresh).slot 0).xfer.active = true) ∧
    ((st (afterAbort fresh)).port.connected = true ∧ ((st (afterAbort fresh)).slot 0).xfer.active = false ∧
      ((st (afterAbort fresh)).slot 0).xfer.inProgress = true) := by unfold Names; decide

/-- Accepted, from a misaligned buffer. -/
theorem witness_TransferProgramsTheChannel :
    Names (st idle) 1 0 ∧ 1 ≤ (1#4).toNat ∧ (1#4).toNat ≤ 4 ∧ 1 ≤ (1#4).toNat ∧ (1#4).toNat ≤ 2 ∧
    (0x20001001#32 ≠ 0 ∨ 5#32 = 0) ∧ (st idle).port.connected = true ∧ ((st idle).slot 0).xfer.active = false ∧
    ((st idle).slot 0).xfer.inProgress = false := by unfold Names; decide

theorem witness_TransferResultReturnsTheCount :
    Names (st (enq 64 64)) 1 0 ∧ (1#16 ≠ 0) ∧ (∀ i, ¬ Names (st idle) 2 i) := by unfold Names; decide

/-- A payload of five bytes has a full and a part-filled word. -/
theorem witness_PushedWordsCarryThePayload :
    (payloadWords p2mem 0x20001001 5)[0]? = some 0x44332211#32 ∧ (payloadWords p2mem 0x20001001 5)[1]? = some 0x00000055#32 := by
  decide

theorem witness_SizeWordSaturates :
    (1#11 ≠ 0) ∧ (2047#11 ≠ 0) ∧ fresh.xfer.token ≠ .setup ∧ fresh.xfer.toggle = .data0 ∧
    (enqOut .out).xfer.token ≠ .setup ∧ (enqOut .out).xfer.toggle = .data1 ∧ (enqOut .setup).xfer.token = .setup := by
  decide

/-- CHH with a determined event; with no event; with no active transfer. -/
theorem witness_ChhDeliversOrParks :
    (((st (ending .busError)).slot 0).xfer.active = true ∧ ((st (ending .busError)).slot 0).xfer.event = some .busError) ∧
    (((st fresh).slot 0).xfer.event = none) ∧ (((st (afterAbort fresh)).slot 0).xfer.active = false) := by decide

/-- A packet of five bytes with its two words, for an active IN transfer with two bytes to go. -/
theorem witness_DataPacketsAreStored :
    let s : State := { st (enq 126 64) with rxdatQ := [0x04030201, 0x00000005] }
    ((5#11).toNat + 3) / 4 ≤ s.rxdatQ.length ∧ Memory.wf s.mem = true ∧ (s.slot 0).bound = true ∧
    (s.slot 0).xfer.active = true ∧ (s.slot 0).xfer.token = .input := by decide

/-- A free channel, an idle one, an OUT one; and one word where two are needed. -/
theorem witness_StrayPacketsAreDropped :
    let s : State := { st (enqOut .out) with rxdatQ := [1] }
    ((4#11).toNat + 3) / 4 ≤ s.rxdatQ.length ∧ (s.slot 1).bound = false ∧ ((st idle).slot 0).xfer.active = false ∧
    (s.slot 0).xfer.token ≠ .input ∧ s.rxdatQ.length < ((5#11).toNat + 3) / 4 := by decide

theorem witness_StatusOnlyEntriesAreDiscarded :
    (recv 0x00060000 [] conn).rxstsQ = 0x00060000 :: [] ∧ field 0x00060000#32 17 4 ≠ 2#4 ∧
    field 0x00000000#32 17 4 ≠ 2#4 ∧ field 0x001E0000#32 17 4 ≠ 2#4 := by decide

/-- A reload of three frames, of one and of none. -/
theorem witness_PeriodicChannelWaitsItsInterval :
    (isParked ((st (parked 3 3)).slot 0) = true ∧ isPeriodic ((st (parked 3 3)).slot 0) = true ∧
      ((st (parked 3 3)).slot 0).xfer.countdown = ((st (parked 3 3)).slot 0).ep.reload ∧
      3 = max 1 ((st (parked 3 3)).slot 0).ep.reload.toNat) ∧
    (isParked ((st (parked 1 1)).slot 0) = true ∧ isPeriodic ((st (parked 1 1)).slot 0) = true ∧
      ((st (parked 1 1)).slot 0).xfer.countdown = ((st (parked 1 1)).slot 0).ep.reload ∧
      1 = max 1 ((st (parked 1 1)).slot 0).ep.reload.toNat) ∧
    (isParked ((st (parked 0 0)).slot 0) = true ∧ isPeriodic ((st (parked 0 0)).slot 0) = true ∧
      ((st (parked 0 0)).slot 0).xfer.countdown = ((st (parked 0 0)).slot 0).ep.reload ∧
      1 = max 1 ((st (parked 0 0)).slot 0).ep.reload.toNat) := by decide

/-- The port pass under the guard, with a connect to acknowledge. -/
theorem witness_PortCausesAreGuarded :
    ({ guarded with hprt := { guarded.hprt with pcdet := true } } : State).port.portReset = true := by decide

/-- Two pending channels and one that is not. -/
theorem witness_ChannelPassServesEachPendingChannel :
    let s := two (causes 0x010#11 fresh) (causes 0x001#11 fresh)
    (s.slot 0).pending = true ∧ (s.slot 5).pending = true ∧ (s.slot 1).pending = false := by decide

/-- A channel the tick re-arms, one whose countdown is done, and one that waits. -/
theorem witness_SofPassRearmsParkedChannels :
    isRearmed ((st (parked 3 1)).slot 0) = true ∧
    isRearmed ((st (parked 3 0)).slot 0) = true ∧ isRearmed ((st (parked 3 2)).slot 0) = false ∧
    isParked ((st (parked 3 2)).slot 0) = true := by decide

end Sys2Proof.Tests
end

section
/-! SUPPORT. What a step does with the oldest input, and what one rewritten slot leaves as it was (10_state.md R54 to R61). -/

open Sys2Proof Sys2Proof.Machine Sys2Proof.Claims

namespace Sys2Proof.Proofs.Link

/-- A step with an input pending serves the oldest one (R12, R300). -/
theorem step_of_inbox_cons {s : State} {x : Input} {q : List Input} (h : s.inbox = x :: q) :
    step s = serveInput x { s with inbox := q } := by
  simp [step, nextStep, h]

theorem onlySlot_modChan (s : State) (i : ChanId) (f : Chan → Chan) : OnlySlot s (s.modChan i f) i (f (s.slot i)) :=
  ⟨by simp, fun j hj => by simp [hj]⟩

theorem serveInput_linkHalted {s : State} {i : ChanId} (h : (s.slot i).hcchar.chdis = true) :
    serveInput (.linkHalted i) s = .next (s.modChan i Chan.haltConfirmed) :=
  if_pos h

theorem reset_slot (i : ChanId) : State.reset.slot i = Chan.zero := by
  simp [State.slot, State.reset]

/-- No source is pending after reset: no change bit, no cause, no receive entry, no latch (R39, R54). -/
theorem reset_gintsts : gintsts State.reset = 0#32 := by decide

theorem reset_tx (i : ChanId) : State.reset.tx i = [] := by
  simp [State.tx, State.reset]

/-- Settles O13: each input rewrites the slot it names, by the slot's own rule, and the inbox moves on. -/
theorem linkCausesAndHaltConfirmations : Obligations.LinkCausesAndHaltConfirmations := by
  unfold Obligations.LinkCausesAndHaltConfirmations
  constructor
  · intro s ch bits q h
    exact ⟨linkCause ch bits { s with inbox := q }, step_of_inbox_cons h, onlySlot_modChan { s with inbox := q } ch _, rfl⟩
  · intro s ch q h hd
    have served := serveInput_linkHalted (s := { s with inbox := q }) hd
    exact ⟨_, (step_of_inbox_cons h).trans served, onlySlot_modChan { s with inbox := q } ch Chan.haltConfirmed, rfl⟩

/-- Settles O14: the four inputs are served as R58 to R61 write them. -/
theorem linkQueuesFramesAndPort : Obligations.LinkQueuesFramesAndPort := by
  unfold Obligations.LinkQueuesFramesAndPort
  intro s q
  exact ⟨fun _ _ h => step_of_inbox_cons h, fun _ h => step_of_inbox_cons h,
    fun _ _ _ _ _ h => step_of_inbox_cons h, fun h => step_of_inbox_cons h⟩

/-- Settles O16: the two banks of sixteen by their entries, every other element by its value in `State.reset`. -/
theorem resetStateIsZero : Obligations.ResetStateIsZero := by
  unfold Obligations.ResetStateIsZero
  exact ⟨reset_slot, reset_tx, rfl, by decide, reset_gintsts, rfl, rfl, rfl, rfl, rfl, rfl, rfl, rfl, rfl, rfl⟩

end Sys2Proof.Proofs.Link
end

section
/-! SUPPORT. Who binds a channel and who writes its endpoint record (10_state.md R33): the procedures of the engine keep both,
and `exec` changes them only as `EndpointMove` says. -/

open Sys2Proof Sys2Proof.Machine

namespace Sys2Proof.Proofs.Endpoint

/-! ### Procedures keep the bindings -/

/-- Per channel, whether it is bound and to which endpoint record (R21, R22). -/
def bindings (s : State) (i : ChanId) : Bool × Endpoint := ((s.slot i).bound, (s.slot i).ep)

/-- Rewriting one slot keeps the bindings if its own is kept. -/
theorem modChan_bindings {s : State} {i : ChanId} {f : Chan → Chan}
    (hf : ∀ c, (f c).bound = c.bound ∧ (f c).ep = c.ep) : bindings (s.modChan i f) = bindings s := by
  funext j
  by_cases hj : j = i
  · subst hj; simp [bindings, hf]
  · simp [bindings, hj]

theorem mapChans_bindings {s : State} {f : Chan → Chan} (hf : ∀ c, (f c).bound = c.bound ∧ (f c).ep = c.ep) :
    bindings (s.mapChans f) = bindings s := by
  funext j
  simp [bindings, hf]

@[simp] theorem strobe_bindings (s : State) (x : Strobe) : bindings (s.strobe x) = bindings s := rfl

@[simp] theorem haltRequest_bindings (i : ChanId) (s : State) : bindings (haltRequest i s) = bindings s := by
  rw [haltRequest_eq]
  exact modChan_bindings fun _ => ⟨rfl, rfl⟩

@[simp] theorem program_bindings (i : ChanId) (s : State) : bindings (program i s) = bindings s := by
  rw [program_eq]
  exact modChan_bindings fun _ => ⟨rfl, rfl⟩

@[simp] theorem rearm_bindings (i : ChanId) (s : State) : bindings (rearm i s) = bindings s := by
  simp [rearm, modChan_bindings]

@[simp] theorem modXfer_bindings (i : ChanId) (f : Transfer → Transfer) (s : State) :
    bindings (s.modChan i (fun c => c.modXfer f)) = bindings s :=
  modChan_bindings fun _ => ⟨rfl, rfl⟩

@[simp] theorem markNyet_bindings (i : ChanId) (s : State) : bindings (markNyet i s) = bindings s :=
  modXfer_bindings i _ s

@[simp] theorem ackCauses_bindings (i : ChanId) (s : State) : bindings (ackCauses i s) = bindings s :=
  modChan_bindings fun _ => ⟨rfl, rfl⟩

@[simp] theorem abort_bindings (i : ChanId) (s : State) : bindings (abort i s) = bindings s := by
  simp [abort, apply_ite bindings]

@[simp] theorem enqueue_bindings (i : ChanId) (tok : Token) (tog : Toggle) (buf len : Word) (s : State) :
    bindings (enqueue i tok tog buf len s) = bindings s :=
  (program_bindings i _).trans (modChan_bindings fun _ => ⟨rfl, rfl⟩)

/-! ### Causes keep the bindings -/

@[simp] theorem causeXfrc_bindings (i : ChanId) (s : State) : bindings (causeXfrc i s) = bindings s := by
  simp [causeXfrc]

@[simp] theorem causeStall_bindings (i : ChanId) (s : State) : bindings (causeStall i s) = bindings s := by
  simp [causeStall, determine]

@[simp] theorem busFailure_bindings (i : ChanId) (s : State) : bindings (busFailure i s) = bindings s := by
  simp [busFailure, determine]

@[simp] theorem causeNak_bindings (i : ChanId) (s : State) : bindings (causeNak i s) = bindings s := by
  simp [causeNak, apply_ite bindings]

@[simp] theorem causeAck_bindings (i : ChanId) (s : State) : bindings (causeAck i s) = bindings s := by
  dsimp only [causeAck]
  split
  · simp [apply_ite bindings]
  · exact modXfer_bindings i _ s
  · rfl

@[simp] theorem causeChh_bindings (i : ChanId) (s : State) : bindings (causeChh i s) = bindings s := by
  have released : bindings (s.modChan i Chan.released) = bindings s := modChan_bindings fun _ => ⟨rfl, rfl⟩
  dsimp only [causeChh]
  split
  · exact (modXfer_bindings i _ _).trans released
  · exact released

/-- Whichever branch of the chain is taken (R190 to R200). -/
@[simp] theorem resolveCause_bindings (i : ChanId) (w : CauseWord) (s : State) :
    bindings (resolveCause i w s) = bindings s := by
  simp [resolveCause, fallThrough, apply_ite bindings]

@[simp] theorem chanService_bindings (i : ChanId) (s : State) : bindings (chanService i s) = bindings s := by
  simp [chanService, modChan_bindings, apply_ite bindings]

/-! ### Passes keep the bindings -/

/-- A scan of the channels keeps the bindings if what it does at each channel does. -/
theorem scan_bindings {f : ChanId → State → State} (hf : ∀ i t, bindings (f i t) = bindings t) (s : State) :
    bindings (chanIds.foldl (fun t i => f i t) s) = bindings s :=
  List.foldlRecOn (motive := fun t => bindings t = bindings s) chanIds (fun t i => f i t) rfl
    fun t ht i _ => (hf i t).trans ht

theorem channelPass_bindings (s : State) : bindings (channelPass s) = bindings s :=
  scan_bindings (fun i t => by simp [servicePending, apply_ite bindings]) s

theorem periodicTick_bindings (i : ChanId) (s : State) : bindings (periodicTick i s) = bindings s := by
  have counted (v : Chan → BitVec 16) (u : State) :
      bindings (u.modChan i (fun c => c.setCountdown (v c))) = bindings u := modChan_bindings fun _ => ⟨rfl, rfl⟩
  dsimp only [periodicTick]
  split
  · exact (counted (fun c => c.ep.reload) _).trans ((program_bindings i _).trans (counted (fun _ => _) s))
  · exact counted (fun _ => _) s

theorem tickChan_bindings (i : ChanId) (s : State) : bindings (tickChan i s) = bindings s := by
  simp [tickChan, periodicTick_bindings, apply_ite bindings]

theorem sofPass_bindings (s : State) : bindings (sofPass s) = bindings s := 
  scan_bindings tickChan_bindings { s with sofLatch := false }

theorem disconnectPass_bindings (s : State) : bindings (disconnectPass s) = bindings s := by
  refine mapChans_bindings (s := s) fun c => ?_
  unfold Chan.disconnected
  split <;> exact ⟨rfl, rfl⟩

@[simp] theorem portConnectDetected_bindings (s : State) : bindings (portConnectDetected s) = bindings s := by
  dsimp only [portConnectDetected]
  split <;> rfl

@[simp] theorem portEnableChanged_bindings (pena : Bool) (pspd : BitVec 2) (s : State) :
    bindings (portEnableChanged pena pspd s) = bindings s := by
  dsimp only [portEnableChanged]
  split <;> rfl

theorem portService_bindings (s : State) : bindings (portService s) = bindings s := by
  simp [portService, apply_ite bindings]

theorem drainData_bindings {i : ChanId} {bcnt : BitVec 11} {s t : State} (h : drainData i bcnt s = .next t) :
    bindings t = bindings s := by
  unfold drainData at h
  split at h
  · cases h
  · rename_i ws u hu
    obtain ⟨-, -, rfl⟩ := State.popWords_some hu
    split at h <;> cases h
    · exact modXfer_bindings i _ _
    · rfl

theorem drainRx_bindings {s t : State} (h : drainRx s = .next t) : bindings t = bindings s := by
  unfold drainRx at h
  split at h
  · cases h
  · rename_i status u hu
    obtain ⟨rest, -, rfl⟩ := State.popStatus_some hu
    unfold drainEntry at h
    split at h
    · exact (drainData_bindings h :)
    · cases h; rfl

theorem rxPass_bindings {s t : State} (h : rxPass s = .next t) : bindings t = bindings s := by
  unfold rxPass at h
  split at h
  · rename_i u hu
    cases h
    exact (drainRx_bindings hu :)
  all_goals cases h

/-! ### What an instruction may do with an endpoint record -/

/-- What instruction `i` may do to the endpoint of a slot that goes from `c` to `d` (R33). -/
inductive EndpointMove (i : Instr) (c d : Chan) : Prop where
  | kept (bound : d.bound = c.bound) (ep : d.ep = c.ep)
  | boundAnew (free : c.bound = false)
  | freed (free : d.bound = false)
  | modified {handle : BitVec 8} {devAddr : BitVec 7} {devSpeed : BitVec 2} {mps : BitVec 16} {rsv : BitVec 23}
      (instr : i = .cmdEpModify handle devAddr devSpeed mps rsv) {a : BitVec 7} {sp : Speed} {m : BitVec 11}
      (ep : d.ep = { c.ep with devAddr := a, speed := sp, mps := m })

/-- Every slot of the next state, if there is one, has moved as `EndpointMove` allows. -/
def Moves (i : Instr) (s : State) (r : Result) : Prop :=
  ∀ t, r = .next t → ∀ c, EndpointMove i (s.slot c) (t.slot c)

section
variable {i : Instr} {s t : State} {r : Result}

theorem EndpointMove.of_bindings (h : bindings t = bindings s) (c : ChanId) : EndpointMove i (s.slot c) (t.slot c) := by
  obtain ⟨hb, he⟩ := Prod.mk.inj (congrFun h c)
  exact .kept hb he

theorem Moves.of_next (h : ∀ c, EndpointMove i (s.slot c) (t.slot c)) : Moves i s (.next t) := by
  rintro _ ⟨⟩
  exact h

theorem Moves.of_bindings (h : ∀ t, r = .next t → bindings t = bindings s) : Moves i s r :=
  fun t ht => .of_bindings (h t ht)

theorem Moves.kept (h : bindings t = bindings s) : Moves i s (.next t) := .of_next (.of_bindings h)

/-- A command that only returns a word. -/
theorem Moves.returned (w : Word) : Moves i s (.next (s.ret w)) := .kept rfl

/-- A check of the operands, answered with a returned word when it fails. -/
theorem Moves.guarded {p : Prop} [Decidable p] {w : Word} (h : Moves i s r) :
    Moves i s (if p then .next (s.ret w) else r) := by
  split
  · exact .returned w
  · exact h

/-- One slot rewritten: only that slot moves. -/
theorem Moves.modChan {u : State} {j : ChanId} {f : Chan → Chan} {w : Word} (hu : bindings u = bindings s)
    (h : EndpointMove i (s.slot j) (f (u.slot j))) : Moves i s (.next ((u.modChan j f).ret w)) := by
  refine .of_next fun c => ?_
  by_cases hc : c = j
  · subst hc; simpa using h
  · simpa [hc] using EndpointMove.of_bindings hu c

theorem allocate_some {s : State} {j : ChanId} (h : allocate s = some j) : (s.slot j).bound = false := by
  simpa using List.find?_some h

theorem moves_cmdInitialize (portCb epCb : Bool) (rsv : BitVec 22) :
    Moves i s (execCmdInitialize portCb epCb rsv s) := by
  have cleared (u : State) (c : ChanId) : (engineClear u).slot c = Chan.zero := by simp [engineClear, State.slot]
  refine .guarded (.of_next fun c => .freed ?_)
  split <;> exact congrArg Chan.bound (cleared s.afterDraw c)

theorem moves_cmdEpCreate (devAddr : BitVec 7) (devSpeed : BitVec 2) (epNum : BitVec 4) (epDir : Bool)
    (epType : BitVec 2) (mps : BitVec 16) (interval : BitVec 8) (rsv : BitVec 16) :
    Moves i s (execCmdEpCreate devAddr devSpeed epNum epDir epType mps interval rsv s) := by
  refine .guarded ?_
  split
  · exact .returned _
  · refine .guarded ?_
    split
    · exact .returned _
    · next j hj => exact .modChan rfl (.boundAnew (allocate_some hj))

theorem moves_cmdEpModify (handle : BitVec 8) (devAddr : BitVec 7) (devSpeed : BitVec 2) (mps : BitVec 16)
    (rsv : BitVec 23) :
    Moves (.cmdEpModify handle devAddr devSpeed mps rsv) s (execCmdEpModify handle devAddr devSpeed mps rsv s) := by
  refine .guarded ?_
  split
  · exact .returned _
  · next j _ =>
    split
    · exact .returned _
    · have aborted := abort_bindings j s
      have ep : ((abort j s).slot j).ep = (s.slot j).ep := congrArg Prod.snd (congrFun aborted j)
      exact .guarded (.modChan aborted (.modified rfl (by rw [← ep]; rfl)))

theorem moves_cmdEpDelete (handle : BitVec 8) (rsv : BitVec 16) : Moves i s (execCmdEpDelete handle rsv s) := by
  refine .guarded ?_
  split
  · exact .returned _
  · exact .modChan (abort_bindings _ s) (.freed rfl)

/-- EP_RESET and EP_TRANSFER_ABORT are one meaning (R147, R187). -/
theorem moves_cmdEpReset (handle : BitVec 8) (rsv : BitVec 16) : Moves i s (execCmdEpReset handle rsv s) := by
  refine .guarded ?_
  split
  · exact .returned _
  · exact .kept (abort_bindings _ s)

theorem moves_cmdEpTransfer (handle : BitVec 8) (token toggle : BitVec 4) (buf len : Word) (rsv : BitVec 8) :
    Moves i s (execCmdEpTransfer handle token toggle buf len rsv s) := by
  refine .guarded ?_
  split
  · exact .returned _
  · split
    · exact .guarded (.guarded (.guarded (.kept (enqueue_bindings _ _ _ _ _ s))))
    · exact .returned _

theorem moves_cmdEpTransferResult (handle : BitVec 8) (rsv : BitVec 16) :
    Moves i s (execCmdEpTransferResult handle rsv s) := by
  refine .guarded ?_
  split
  · exact .returned _
  · exact .returned _

theorem moves_cmdPowerControl (on : Bool) (rsv : BitVec 23) : Moves i s (execCmdPowerControl on rsv s) := by
  cases on
  case false => exact .guarded (.kept rfl)
  case true => exact .guarded (.kept (mapChans_bindings (s := s) fun _ => ⟨rfl, rfl⟩))

end

/-- Everything an instruction can do with endpoint records (R33). -/
theorem moves_exec (i : Instr) (s : State) : Moves i s (exec i s) := by
  cases i with
  | cmdInitialize portCb epCb rsv => exact moves_cmdInitialize portCb epCb rsv
  | cmdUninitialize rsv => exact .guarded (.kept rfl)
  | cmdPowerControl on rsv => exact moves_cmdPowerControl on rsv
  | cmdPortVbus port on rsv => exact .guarded (.guarded (.kept rfl))
  | cmdPortReset port rsv => exact .guarded (.guarded (.kept rfl))
  | cmdPortSuspend port rsv => exact .guarded (.guarded (.kept rfl))
  | cmdPortResume port rsv => exact .guarded (.guarded (.kept rfl))
  | cmdPortGetState port rsv => exact .guarded (.guarded (.returned _))
  | cmdGetFrameNumber rsv => exact .guarded (.returned _)
  | cmdEpCreate devAddr devSpeed epNum epDir epType mps interval rsv => exact moves_cmdEpCreate _ _ _ _ _ _ _ _
  | cmdEpModify handle devAddr devSpeed mps rsv => exact moves_cmdEpModify handle devAddr devSpeed mps rsv
  | cmdEpDelete handle rsv => exact moves_cmdEpDelete handle rsv
  | cmdEpReset handle rsv => exact moves_cmdEpReset handle rsv
  | cmdEpTransfer handle token toggle buf len rsv => exact moves_cmdEpTransfer handle token toggle buf len rsv
  | cmdEpTransferResult handle rsv => exact moves_cmdEpTransferResult handle rsv
  | cmdEpTransferAbort handle rsv => exact moves_cmdEpReset handle rsv
  | gintHprtint => exact .kept (portService_bindings s)
  | gintDiscint => exact .kept (disconnectPass_bindings s)
  | gintRxflvl => exact .of_bindings fun _ => rxPass_bindings
  | gintHcint => exact .kept (channelPass_bindings s)
  | gintSof => exact .kept (sofPass_bindings s)
  | hcintXfrc ch => exact .kept (causeXfrc_bindings ch s)
  | hcintStall ch => exact .kept (causeStall_bindings ch s)
  | hcintNak ch => exact .kept (causeNak_bindings ch s)
  | hcintAck ch => exact .kept (causeAck_bindings ch s)
  | hcintTxerr ch | hcintBberr ch | hcintDterr ch => exact .kept (busFailure_bindings ch s)
  | hcintChh ch => exact .kept (causeChh_bindings ch s)
  | hcintNyet ch => exact .kept (markNyet_bindings ch s)
  | hcintRsv2 ch | hcintRsv9 ch => exact .kept (haltRequest_bindings ch s)
  | rxstsInData ch bcnt dpid rsv => exact .of_bindings fun _ => drainData_bindings
  | rxstsInXferDone | rxstsToggleErr | rxstsChHalted | rxstsOther => exact .kept rfl
  | hprtPcdet => exact .kept (portConnectDetected_bindings s)
  | hprtPenchng pena pspd => exact .kept (portEnableChanged_bindings pena pspd s)

/-- Settles O25: of the four moves, a slot bound before and after can only have kept its record or met EP_MODIFY. -/
theorem endpointIdentityIsImmutable : Obligations.EndpointIdentityIsImmutable := by
  unfold Obligations.EndpointIdentityIsImmutable
  intro i s t h c hs ht
  cases moves_exec i s t h c with
  | kept _ ep => simp [ep]
  | boundAnew free => simp [hs] at free
  | freed free => simp [ht] at free
  | modified instr ep => exact ⟨by simp [ep], fun notModify => absurd instr (notModify _ _ _ _ _)⟩

end Sys2Proof.Proofs.Endpoint
end

section
/-! SUPPORT. What saturation, the covering packet count and the two result words are as numbers (10_state.md R10, 30_encoding.md
R116, R117, R119). -/

open Sys2Proof Sys2Proof.Machine Sys2Proof.Claims

namespace Sys2Proof.Proofs.Encoding

/-! ### Saturation and the covering count -/

/-- Saturation keeps the smaller of the value and the largest number of `w` bits (R10). -/
theorem sat_toNat (w v : Nat) : (sat w v).toNat = min v (2 ^ w - 1) := by
  have fits : min v (2 ^ w - 1) < 2 ^ w :=
    (Nat.min_le_right _ _).trans_lt (Nat.sub_one_lt (Nat.two_pow_pos w).ne')
  rw [sat, BitVec.toNat_ofNat, Nat.mod_eq_of_lt fits]

/-- `ceilDiv a b` lies at or below exactly the counts of `b` that cover `a` (R10). -/
theorem ceilDiv_le_iff {a b m : Nat} (hb : 0 < b) : ceilDiv a b ≤ m ↔ a ≤ m * b := by
  rw [ceilDiv, ← Nat.ceilDiv_eq_add_pred_div, ceilDiv_le_iff_le_mul hb, Nat.mul_comm]

/-! ### The size word -/

theorem sizeWord_xfrsiz (x : Transfer) (mps : BitVec 11) : (sizeWord x mps).xfrsiz.toNat = min (remaining x) 524287 :=
  sat_toNat 19 _

theorem sizeWord_pktcnt (x : Transfer) (mps : BitVec 11) :
    (sizeWord x mps).pktcnt.toNat = min (max 1 (ceilDiv (remaining x) mps.toNat)) 1023 :=
  sat_toNat 10 _

theorem dpidOf_setup (toggle : Toggle) : dpidOf .setup toggle = 3#2 := rfl

theorem dpidOf_data0 {token : Token} (h : token ≠ .setup) : dpidOf token .data0 = 0#2 := if_neg h

theorem dpidOf_data1 {token : Token} (h : token ≠ .setup) : dpidOf token .data1 = 2#2 := if_neg h

/-- Settles O42: the two counts saturate, and the packet count is the least one that covers the remainder because `ceilDiv` lies
below exactly the covering ones. -/
theorem sizeWordSaturates : Obligations.SizeWordSaturates := by
  unfold Obligations.SizeWordSaturates
  intro x mps hmps
  have mps_pos : 0 < mps.toNat := Nat.pos_of_ne_zero fun h => hmps (BitVec.eq_of_toNat_eq h)
  refine ⟨sizeWord_xfrsiz x mps, ⟨ceilDiv (remaining x) mps.toNat, ?covers, ?least, sizeWord_pktcnt x mps⟩,
    ?setup, ?data0, ?data1, ?doping⟩
  case covers => exact (ceilDiv_le_iff mps_pos).mp le_rfl
  case least => exact fun m covers => (ceilDiv_le_iff mps_pos).mpr covers
  case setup => exact fun token => (congrArg (dpidOf · x.toggle) token).trans (dpidOf_setup _)
  case data0 => exact fun token toggle => (congrArg (dpidOf x.token) toggle).trans (dpidOf_data0 token)
  case data1 => exact fun token toggle => (congrArg (dpidOf x.token) toggle).trans (dpidOf_data1 token)
  case doping => exact beq_iff_eq

/-! ### The port's state word and the frame number -/

/-- `connected` is worth 1 and the speed code, above it, 2 (R119). -/
theorem portStateWord_eq (p : Port) :
    portStateWord p = BitVec.ofNat 32 ((if p.connected then 1 else 0) + 2 * p.speed.code.toNat) := by
  obtain ⟨connected, speed, portReset⟩ := p
  cases connected <;> cases speed <;> simp [portStateWord, Speed.code]

theorem portOk_iff {port : BitVec 8} : portOk port = true ↔ port = 0 := beq_iff_eq

theorem execCmdPortGetState_eq (port : BitVec 8) (rsv : BitVec 16) (s : State) :
    execCmdPortGetState port rsv s =
      .next (answered s (if rsv = 0 ∧ port = 0 then portStateWord s.port else 0#32)) := by
  unfold execCmdPortGetState
  split
  · next hrsv => rw [if_neg fun legal => hrsv legal.1]; rfl
  · next hrsv =>
    split
    · next hport => rw [if_neg fun legal => by simp [portOk_iff.mpr legal.2] at hport]; rfl
    · next hport => rw [if_pos ⟨not_not.mp hrsv, portOk_iff.mp (by simpa using hport)⟩]; rfl

theorem execCmdGetFrameNumber_eq (rsv : BitVec 24) (s : State) :
    execCmdGetFrameNumber rsv s = .next (answered s (if rsv = 0 then s.frnum.setWidth 32 else 0#32)) := by
  unfold execCmdGetFrameNumber
  by_cases hrsv : rsv = 0
  · rw [if_neg (not_not.mpr hrsv), if_pos hrsv]; rfl
  · rw [if_pos hrsv, if_neg hrsv]; rfl

/-- Settles O34: the port's state word and the zero-extended frame number, as numbers. -/
theorem portStateAndFrameNumberAreReturned : Obligations.PortStateAndFrameNumberAreReturned := by
  unfold Obligations.PortStateAndFrameNumberAreReturned
  constructor
  · intro port rsv s
    rw [← portStateWord_eq]
    exact execCmdPortGetState_eq port rsv s
  · intro rsv s
    rw [BitVec.ofNat_toNat]
    exact execCmdGetFrameNumber_eq rsv s

end Sys2Proof.Proofs.Encoding
end

section
/-! SUPPORT. The checks of the channel commands, what `Abort` and a rewrite of the same slot leave, and the commands by the case
their checks select (40_channel_table.md R140 to R149, 42_channel_fsm.md R186, R187). -/

open Sys2Proof Sys2Proof.Machine Sys2Proof.Claims

namespace Sys2Proof.Proofs.ChannelTable

/-! ### The checks of the operands (R105, R144, R148) -/

theorem speedOfCode_eq_none_iff {b : BitVec 2} : speedOfCode b = none ↔ b = 3#2 := by
  revert b; decide

theorem speedOfCode_eq_some_iff {b : BitVec 2} {speed : Speed} : speedOfCode b = some speed ↔ speed.code = b := by
  revert b; cases speed <;> decide

theorem exists_speedOfCode {b : BitVec 2} (h : b ≠ 3#2) : ∃ speed, speedOfCode b = some speed :=
  Option.ne_none_iff_exists'.mp (mt speedOfCode_eq_none_iff.mp h)

theorem epTypeOfCode_code (b : BitVec 2) : (epTypeOfCode b).code = b := by
  revert b; decide

theorem mpsOk_iff {mps : BitVec 16} : mpsOk mps = true ↔ 1 ≤ mps.toNat ∧ mps.toNat ≤ 2047 := by
  have nonzero : mps ≠ 0#16 ↔ 1 ≤ mps.toNat := by
    rw [← BitVec.toNat_ne_iff_ne, Nat.one_le_iff_ne_zero]; rfl
  simp [mpsOk, nonzero]

theorem mpsOk_eq_false_iff {mps : BitVec 16} : mpsOk mps = false ↔ mps.toNat = 0 ∨ 2047 < mps.toNat := by
  rw [← Bool.not_eq_true, mpsOk_iff]; omega

theorem boundChan_eq_some_iff {s : State} {h : Byte} {i : ChanId} : boundChan s h = some i ↔ Names s h i := by
  constructor
  · exact boundChan_some
  · rintro ⟨handle, bound⟩
    have channel : chanOfHandle h = some i := by
      rw [chanOfHandle, dif_pos (by omega)]
      exact congrArg some (Fin.ext (by simp [handle]))
    simp [boundChan, channel, bound]

theorem boundChan_eq_none_iff {s : State} {h : Byte} : boundChan s h = none ↔ ∀ i, ¬ Names s h i := by
  simp [Option.eq_none_iff_forall_ne_some, boundChan_eq_some_iff]

/-! ### The lowest free channel (R140) -/

theorem chanIds_eq_finRange : chanIds = List.finRange 16 := by decide

theorem allocate_eq_none_iff {s : State} : allocate s = none ↔ ∀ i, (s.slot i).bound = true := by
  simp [allocate, mem_chanIds]

theorem allocate_of_lowest_free {s : State} {i : ChanId} (free : (s.slot i).bound = false)
    (lower : ∀ j, j < i → (s.slot j).bound = true) : allocate s = some i := by
  rw [allocate, chanIds_eq_finRange, List.find?_eq_some_iff_getElem]
  refine ⟨by simp [free], i.val, by simp, by simp, fun j hj => ?_⟩
  simp [lower ⟨j, by omega⟩ hj]

theorem handleOf_setWidth (i : ChanId) : (handleOf i).setWidth 32 = BitVec.ofNat 32 (i.val + 1) := by
  revert i; decide

/-! ### The interval reload (R143) -/

theorem intervalReload_high {interval : BitVec 8} (h : interval ≠ 0) :
    (intervalReload .high interval).toNat = min (2 ^ (interval.toNat - 1)) 65535 :=
  (congrArg BitVec.toNat (if_neg h)).trans (Encoding.sat_toNat 16 _)

theorem intervalReload_notHigh {speed : Speed} (h : speed ≠ .high) (interval : BitVec 8) :
    (intervalReload speed interval).toNat = interval.toNat := by
  cases speed with
  | high => exact absurd rfl h
  | low | full => exact BitVec.toNat_setWidth_of_le (by decide)

/-- Settles O36: the power of two stays below the saturation bound exactly up to interval 16. -/
theorem intervalReloadFollowsSpeed : Obligations.IntervalReloadFollowsSpeed := by
  unfold Obligations.IntervalReloadFollowsSpeed
  intro speed interval
  split
  case isFalse notHigh => exact intervalReload_notHigh notHigh interval
  case isTrue high =>
    subst high
    split
    case isTrue zero => rw [BitVec.eq_of_toNat_eq (y := 0#8) zero]; rfl
    case isFalse nonzero =>
      rw [intervalReload_high fun h => nonzero (congrArg BitVec.toNat h)]
      split
      case isTrue small =>
        have : 2 ^ (interval.toNat - 1) ≤ 2 ^ 15 := Nat.pow_le_pow_right (by decide) (by omega)
        omega
      case isFalse large =>
        have : 2 ^ 16 ≤ 2 ^ (interval.toNat - 1) := Nat.pow_le_pow_right (by decide) (by omega)
        omega

/-! ### EP_CREATE (R141, R144) -/

section
variable {s : State} {devSpeed : BitVec 2} {mps rsv : BitVec 16}

theorem execCmdEpCreate_refused (devAddr : BitVec 7) (epNum : BitVec 4) (epDir : Bool) (epType : BitVec 2)
    (interval : BitVec 8)
    (reasons : rsv ≠ 0 ∨ speedOfCode devSpeed = none ∨ mpsOk mps = false ∨ allocate s = none) :
    execCmdEpCreate devAddr devSpeed epNum epDir epType mps interval rsv s = .next (answered s 0#32) := by
  unfold execCmdEpCreate
  split
  · rfl
  next legal =>
    split
    · rfl
    next fast =>
      split
      · rfl
      next size =>
        split
        · rfl
        -- Every check has passed, which contradicts each of the reasons.
        next free => simp_all

theorem execCmdEpCreate_accepted {speed : Speed} {i : ChanId} (devAddr : BitVec 7) (epNum : BitVec 4) (epDir : Bool)
    (epType : BitVec 2) (interval : BitVec 8) (legal : rsv = 0) (hspeed : speedOfCode devSpeed = some speed)
    (size : mpsOk mps = true) (free : allocate s = some i) :
    execCmdEpCreate devAddr devSpeed epNum epDir epType mps interval rsv s =
      .next ((bindChan i (newEndpoint devAddr speed epNum epDir epType mps interval) s).ret
        (BitVec.ofNat 32 (i.val + 1))) := by
  simp [execCmdEpCreate, legal, hspeed, size, free, handleOf_setWidth]

end

theorem onlySlot_bindChan_ret (i : ChanId) (e : Endpoint) (s : State) (w : Word) :
    OnlySlot s ((bindChan i e s).ret w) i (boundTo e) :=
  Link.onlySlot_modChan s i fun _ => boundTo e

/-- Settles O35: each reason of the statement is one check of the command, and the first free channel of the scan is the
lowest. -/
theorem createBindsTheLowestFreeChannel : Obligations.CreateBindsTheLowestFreeChannel := by
  unfold Obligations.CreateBindsTheLowestFreeChannel
  constructor
  · intro devAddr devSpeed epNum epDir epType mps interval rsv s reasons
    refine execCmdEpCreate_refused devAddr epNum epDir epType interval ?_
    rwa [speedOfCode_eq_none_iff, mpsOk_eq_false_iff, allocate_eq_none_iff, or_assoc]
  · intro devAddr devSpeed epNum epDir epType mps interval rsv s i legal fast atLeast atMost free lower
    obtain ⟨speed, hspeed⟩ := exists_speedOfCode fast
    have accepted := execCmdEpCreate_accepted devAddr epNum epDir epType interval legal hspeed
      (mpsOk_iff.mpr ⟨atLeast, atMost⟩) (allocate_of_lowest_free free lower)
    rw [BitVec.ofNat_toNat]
    exact ⟨_, speed, epTypeOfCode epType, accepted, speedOfCode_eq_some_iff.mp hspeed, epTypeOfCode_code epType,
      onlySlot_bindChan_ret i _ s _, fun _ => rfl, rfl⟩

/-! ### `Abort`, then a rewrite of the same slot (R186) -/

theorem aborted_eq_afterAbort (c : Chan) : c.aborted = afterAbort c := by
  unfold Chan.aborted afterAbort
  split <;> rfl

theorem afterAbort_ep (c : Chan) : (afterAbort c).ep = c.ep := by
  unfold afterAbort
  split <;> rfl

theorem afterAbort_chena (c : Chan) : (afterAbort c).hcchar.chena = c.hcchar.chena := by
  unfold afterAbort
  split <;> rfl

theorem afterAbort_hcint (c : Chan) : (afterAbort c).hcint = c.hcint := by
  unfold afterAbort
  split <;> rfl

/-- `Abort` changes its slot and the strobe trace, and nothing else (R186). -/
theorem abort_eq (i : ChanId) (s : State) :
    abort i s = { s with chan := (abort i s).chan, hwq := s.hwq ++ abortStrobes (s.slot i) i } := by
  unfold abort abortStrobes haltStrobes
  split
  · rw [haltRequest_eq]
    cases (s.slot i).hcchar.chdis <;> simp [State.modChan]
  · simp [State.modChan]

/-- From `s` to `t` slot `i`, aborted, has become `c`, the strobes of the abort were issued, and the command answered OK. -/
def StoppedAs (s t : State) (i : ChanId) (c : Chan) : Prop :=
  OnlySlot s t i c ∧ SameBytes s t ∧
    t = { s with
      chan := t.chan
      hwq := s.hwq ++ abortStrobes (s.slot i) i
      resq := s.resq ++ [0#32] }

theorem stoppedAs_abort (i : ChanId) (s : State) : StoppedAs s ((abort i s).ret stOk) i (afterAbort (s.slot i)) := by
  refine ⟨⟨?slot, ?others⟩, ?bytes, ?frame⟩
  case slot => simp [aborted_eq_afterAbort]
  case others => exact fun j hj => by simp [hj]
  all_goals rw [abort_eq]
  case bytes => exact fun _ => rfl
  case frame => rfl

/-- A further rewrite of the slot before the answer. -/
theorem stoppedAs_abort_modChan (i : ChanId) (f : Chan → Chan) (s : State) :
    StoppedAs s (((abort i s).modChan i f).ret stOk) i (f (afterAbort (s.slot i))) := by
  obtain ⟨_, bytes, frame⟩ := stoppedAs_abort i s
  refine ⟨⟨?slot, ?others⟩, bytes, ?frame⟩
  case slot => simp [aborted_eq_afterAbort]
  case others => exact fun j hj => by simp [hj]
  case frame => exact congrArg (fun t : State => { t with chan := ((abort i s).modChan i f).chan }) frame

/-! ### EP_MODIFY (R145) -/

section
variable {s : State} {h : Byte} {devSpeed : BitVec 2} {mps : BitVec 16} {rsv : BitVec 23}

theorem execCmdEpModify_refused (devAddr : BitVec 7)
    (reasons : rsv ≠ 0 ∨ boundChan s h = none ∨ speedOfCode devSpeed = none ∨ mpsOk mps = false) :
    execCmdEpModify h devAddr devSpeed mps rsv s = .next (answered s 0xFFFFFFFB#32) := by
  unfold execCmdEpModify
  split
  · rfl
  next legal =>
    split
    · rfl
    next bound =>
      split
      · rfl
      next fast =>
        split
        · rfl
        -- Every check has passed, which contradicts each of the reasons.
        next size => simp_all

theorem execCmdEpModify_accepted {i : ChanId} {speed : Speed} (devAddr : BitVec 7) (legal : rsv = 0)
    (bound : boundChan s h = some i) (hspeed : speedOfCode devSpeed = some speed) (size : mpsOk mps = true) :
    execCmdEpModify h devAddr devSpeed mps rsv s =
      .next (((abort i s).modChan i (Chan.modified devAddr speed (mps.setWidth 11))).ret stOk) := by
  simp [execCmdEpModify, legal, bound, hspeed, size]

end

/-- Settles O37: each reason of the statement is one check of the command; the rewrite meets the record `Abort` left alone. -/
theorem modifyAbortsThenRewrites : Obligations.ModifyAbortsThenRewrites := by
  unfold Obligations.ModifyAbortsThenRewrites
  constructor
  · intro h devAddr devSpeed mps rsv s reasons
    refine execCmdEpModify_refused devAddr ?_
    rwa [boundChan_eq_none_iff, speedOfCode_eq_none_iff, mpsOk_eq_false_iff]
  · intro h devAddr devSpeed mps rsv s i legal names fast atLeast atMost
    obtain ⟨speed, hspeed⟩ := exists_speedOfCode fast
    have accepted := execCmdEpModify_accepted devAddr legal (boundChan_eq_some_iff.mpr names) hspeed
      (mpsOk_iff.mpr ⟨atLeast, atMost⟩)
    rw [BitVec.ofNat_toNat, ← afterAbort_ep]
    exact ⟨_, speed, accepted, speedOfCode_eq_some_iff.mp hspeed, stoppedAs_abort_modChan i _ s⟩

/-! ### EP_DELETE, EP_RESET and EP_TRANSFER_ABORT (R146, R147, R187) -/

section
variable {s : State} {h : Byte} {rsv : BitVec 16}

theorem execCmdEpDelete_refused (reasons : rsv ≠ 0 ∨ boundChan s h = none) :
    execCmdEpDelete h rsv s = .next (answered s 0xFFFFFFFB#32) := by
  unfold execCmdEpDelete
  split
  · rfl
  next legal =>
    rw [reasons.resolve_left legal]
    rfl

theorem execCmdEpDelete_accepted {i : ChanId} (legal : rsv = 0) (bound : boundChan s h = some i) :
    execCmdEpDelete h rsv s = .next (((abort i s).modChan i Chan.freed).ret stOk) := by
  simp [execCmdEpDelete, legal, bound, release]

theorem execCmdEpReset_refused (reasons : rsv ≠ 0 ∨ boundChan s h = none) :
    execCmdEpReset h rsv s = .next (answered s 0xFFFFFFFB#32) := by
  unfold execCmdEpReset
  split
  · rfl
  next legal =>
    rw [reasons.resolve_left legal]
    rfl

theorem execCmdEpReset_accepted {i : ChanId} (legal : rsv = 0) (bound : boundChan s h = some i) :
    execCmdEpReset h rsv s = .next ((abort i s).ret stOk) := by
  simp [execCmdEpReset, legal, bound]

/-- EP_RESET and EP_TRANSFER_ABORT are one meaning (R147, R187). -/
theorem execCmdEpTransferAbort_eq_reset : execCmdEpTransferAbort h rsv s = execCmdEpReset h rsv s := rfl

end

/-- Settles O38: all three abort the channel, and what `Release` keeps of the slot the abort kept, CHDIS apart. -/
theorem deleteResetAndAbortStopTheChannel : Obligations.DeleteResetAndAbortStopTheChannel := by
  unfold Obligations.DeleteResetAndAbortStopTheChannel
  constructor
  · intro h rsv s reasons
    rw [← boundChan_eq_none_iff] at reasons
    have reset := execCmdEpReset_refused reasons
    exact ⟨execCmdEpDelete_refused reasons, reset, execCmdEpTransferAbort_eq_reset.trans reset⟩
  · intro h rsv s i legal names
    have bound := boundChan_eq_some_iff.mpr names
    have reset := execCmdEpReset_accepted legal bound
    constructor
    · rw [← afterAbort_chena, ← afterAbort_hcint]
      exact ⟨_, execCmdEpDelete_accepted legal bound, stoppedAs_abort_modChan i Chan.freed s⟩
    · exact ⟨_, reset, execCmdEpTransferAbort_eq_reset.trans reset, stoppedAs_abort i s⟩

end Sys2Proof.Proofs.ChannelTable
end

section
/-! SUPPORT. The FIFO words as bytes, runs of stores read back byte by byte, and the receive drain by the case its checks select
(20_memory.md R77, R79, R80; 41_fifo_transport.md R160 to R169; 43_interrupt_dispatcher.md R225). -/

open Sys2Proof Sys2Proof.Machine Sys2Proof.Claims

namespace Sys2Proof.Proofs.Fifo

theorem ceilDiv_four (n : Nat) : ceilDiv n 4 = (n + 3) / 4 := rfl

/-! ### Outgoing words (R160, R161) -/

/-- Above its lowest byte, a word reads as what stands above that byte. -/
theorem extractByte_append_succ {v : Nat} (hi : BitVec v) (lo : Byte) (j : Nat) :
    (hi ++ lo).extractLsb' (8 * (j + 1)) 8 = hi.extractLsb' (8 * j) 8 :=
  BitVec.extractLsb'_append_eq_of_le (by omega)

/-- Lane `j` of a packed word is its `j`-th payload byte (R161). -/
theorem lane_packWord (m : Memory) (a : Word) (n k : Nat) {j : Nat} (hj : j < 4) :
    lane (packWord m a n k) j = payloadByte m a n (4 * k + j) := by
  unfold packWord lane
  match j, hj with
  | 0, _ => exact BitVec.extractLsb'_append_eq_right
  | 1, _ =>
    rw [extractByte_append_succ]
    exact BitVec.extractLsb'_append_eq_right
  | 2, _ =>
    rw [extractByte_append_succ, extractByte_append_succ]
    exact BitVec.extractLsb'_append_eq_right
  | 3, _ =>
    rw [extractByte_append_succ, extractByte_append_succ, extractByte_append_succ]
    exact BitVec.extractLsb'_eq_self

theorem eq_packWord_of_getElem? {m : Memory} {a : Word} {n k : Nat} {w : Word}
    (h : (payloadWords m a n)[k]? = some w) : w = packWord m a n k := by
  obtain ⟨_, rfl⟩ := List.getElem?_eq_some_iff.mp h
  simp [payloadWords]

/-- Settles O41: word `k` is packed from bytes `4k` to `4k + 3` of the payload. -/
theorem pushedWordsCarryThePayload : Obligations.PushedWordsCarryThePayload := by
  unfold Obligations.PushedWordsCarryThePayload
  intro s a n
  constructor
  · rw [payloadWords_length, ceilDiv_four]
  · intro k j hj w hw
    rw [eq_packWord_of_getElem? hw, lane_packWord _ _ _ _ hj]
    rfl

/-! ### Incoming words (R164) -/

/-- Byte `p` of the received stream is lane `p % 4` of word `p / 4` (R164). -/
theorem unpack_getElem? (ws : List Word) (p : Nat) : (unpack ws)[p]? = (ws[p / 4]?).map (lane · (p % 4)) := by
  induction ws generalizing p with
  | nil => simp
  | cons w rest ih =>
    match p with
    | 0 | 1 | 2 | 3 => rfl
    | q + 4 => simpa [Nat.add_div_right, Nat.add_mod_right] using ih q

/-- A read after a run of stores that does not lap the address space: the byte stored at that distance from the start, or the
byte from before (R79, R80). -/
theorem read_writeBytes {m : Memory} {a b : Word} {bs : List Byte} (canonical : Memory.wf m = true)
    (fits : bs.length ≤ 2 ^ 32) :
    Memory.read (Memory.writeBytes m a bs) b.toNat = (bs[(b - a).toNat]?).getD (Memory.read m b.toNat) := by
  induction bs generalizing m a with
  | nil => rfl
  | cons v rest ih =>
    have restFits : rest.length < 2 ^ 32 := fits
    rw [Memory.writeBytes, ih (Memory.wf_write v a.isLt canonical) restFits.le]
    by_cases first : b = a
    · subst first
      have last : (b - (b + 1)).toNat = 2 ^ 32 - 1 := by bv_omega
      rw [List.getElem?_eq_none (by omega), BitVec.sub_self]
      exact Memory.read_write_self b.toNat v canonical
    · have next : (b - a).toNat = (b - (a + 1)).toNat + 1 := by bv_omega
      rw [next, List.getElem?_cons_succ, Memory.read_write_other m v fun h => first (BitVec.eq_of_toNat_eq h)]

/-! ### The data drain by its cases (R163, R166, R168) -/

theorem admits_iff {c : Chan} : c.admits = true ↔ c.bound = true ∧ c.xfer.active = true ∧ c.xfer.token = .input := by
  simp [Chan.admits, and_assoc]

theorem admits_eq_false_iff {c : Chan} :
    c.admits = false ↔ c.bound = false ∨ c.xfer.active = false ∨ c.xfer.token ≠ .input := by
  simp only [Chan.admits, Bool.and_eq_false_iff, beq_eq_false_iff_ne, or_assoc]

section
variable {s : State} {i : ChanId} {bcnt : BitVec 11}

/-- The state without the words of the packet. -/
def popped (bcnt : BitVec 11) (s : State) : State := { s with rxdatQ := s.rxdatQ.drop ((bcnt.toNat + 3) / 4) }

theorem drainData_underflow (short : s.rxdatQ.length < (bcnt.toNat + 3) / 4) :
    drainData i bcnt s = .refused .rxUnderflow := by
  rw [drainData, ceilDiv_four, State.popWords, if_pos short]

theorem drainData_dropped (enough : (bcnt.toNat + 3) / 4 ≤ s.rxdatQ.length) (stray : (s.slot i).admits = false) :
    drainData i bcnt s = .next (popped bcnt s) := by
  rw [drainData, ceilDiv_four, State.popWords_enough enough]
  exact if_neg (Bool.eq_false_iff.mp stray)

theorem drainData_stored (enough : (bcnt.toNat + 3) / 4 ≤ s.rxdatQ.length) (admitted : (s.slot i).admits = true) :
    drainData i bcnt s = .next ((storePacket i bcnt (s.rxdatQ.take ((bcnt.toNat + 3) / 4)) (popped bcnt s)).modChan i
      (fun c => c.modXfer (fun x => x.received bcnt))) := by
  rw [drainData, ceilDiv_four, State.popWords_enough enough]
  exact if_pos admitted

end

/-- Settles O50: a channel that does not admit the packet has one of the three reasons; the drain checks the word count first. -/
theorem strayPacketsAreDropped : Obligations.StrayPacketsAreDropped := by
  unfold Obligations.StrayPacketsAreDropped
  intro ch bcnt dpid rsv s
  exact ⟨fun enough stray => drainData_dropped enough (admits_eq_false_iff.mpr stray), drainData_underflow⟩

/-- Byte `p` of a packet of `n` bytes cut to `stored` bytes: lane `p % 4` of word `p / 4` up to the cut. -/
theorem unpack_take_getElem? {q : List Word} {n stored p : Nat} (enough : (n + 3) / 4 ≤ q.length) (cut : stored ≤ n) :
    ((unpack (q.take ((n + 3) / 4))).take stored)[p]? =
      if p < stored then some (lane ((q[p / 4]?).getD 0) (p % 4)) else none := by
  split
  case isTrue inside =>
    have word : p / 4 < (n + 3) / 4 := by omega
    rw [List.getElem?_take_of_lt inside, unpack_getElem?, List.getElem?_take_of_lt word,
      List.getElem?_eq_getElem (word.trans_le enough)]
    rfl
  case isFalse outside => exact List.getElem?_take_eq_none (by omega)

/-- What memory holds once a packet is stored (R164, R167). -/
theorem memRead_storePacket {s : State} {i : ChanId} {bcnt : BitVec 11} {q : List Word}
    (enough : (bcnt.toNat + 3) / 4 ≤ q.length) (canonical : Memory.wf s.mem = true) (a : Word) :
    memRead (storePacket i bcnt (q.take ((bcnt.toNat + 3) / 4)) s) a =
      let x := (s.slot i).xfer
      let p := (a - (x.buf + x.transferred)).toNat
      if p < storedBytes x bcnt then lane ((q[p / 4]?).getD 0) (p % 4) else memRead s a := by
  have cut : storedBytes (s.slot i).xfer bcnt ≤ bcnt.toNat := Nat.min_le_left _ _
  have small := bcnt.isLt
  refine (read_writeBytes canonical ?_).trans ?_
  · exact (List.length_take_le _ _).trans (by omega)
  · rw [unpack_take_getElem? enough cut]
    dsimp only
    split <;> rfl

/-- Settles O49: the drain stores the packet's bytes and counts them in the slot, and touches nothing else. -/
theorem dataPacketsAreStored : Obligations.DataPacketsAreStored := by
  unfold Obligations.DataPacketsAreStored
  intro ch bcnt dpid rsv s enough canonical bound active token x stored
  have admitted : (s.slot ch).admits = true := admits_iff.mpr ⟨bound, active, token⟩
  exact ⟨_, drainData_stored enough admitted, Link.onlySlot_modChan _ ch _,
    memRead_storePacket (s := popped bcnt s) enough canonical, rfl⟩

/-! ### Entries that are no data packet (R165, R225) -/

theorem drainRx_discarded {s : State} {w : Word} {rest : List Word} (head : s.rxstsQ = w :: rest)
    (noData : field w 17 4 ≠ 2#4) : drainRx s = .next { s with rxstsQ := rest } := by
  rw [drainRx, State.popStatus, head]
  exact if_neg noData

/-- Masking, then unmasking, a source leaves it unmasked, whatever it was (R225). -/
theorem and_not_or_self (g m : Word) : (g &&& ~~~m) ||| m = g ||| m := by
  ext b hb
  cases hm : m[b] <;> simp [hm]

/-- The receive pass pops the status word between masking and unmasking its source (R225). -/
theorem rxPass_discarded {s : State} {w : Word} {rest : List Word} (head : s.rxstsQ = w :: rest)
    (noData : field w 17 4 ≠ 2#4) :
    rxPass s = .next { s with rxstsQ := rest, gintmsk := s.gintmsk ||| 0x00000010#32 } := by
  have drained : drainRx (maskRx s) = .next { maskRx s with rxstsQ := rest } := drainRx_discarded head noData
  have masks : (s.gintmsk &&& ~~~oneHot 4) ||| oneHot 4 = s.gintmsk ||| 0x00000010#32 := and_not_or_self _ _
  rw [rxPass, drained, ← masks]
  rfl

/-- Settles O51: the four classes have no effect of their own, and the receive pass only pops the status word. -/
theorem statusOnlyEntriesAreDiscarded : Obligations.StatusOnlyEntriesAreDiscarded := by
  unfold Obligations.StatusOnlyEntriesAreDiscarded
  exact ⟨fun _ _ _ _ _ _ => ⟨rfl, rfl, rfl, rfl⟩, fun _ _ _ => rxPass_discarded⟩

end Sys2Proof.Proofs.Fifo
end

section
/-! SUPPORT. What each cause, each service and the transfer commands leave of their channel, as one rewritten slot with
its strobes and events, and which cause an invocation runs (42_channel_fsm.md R181 to R201). -/

open Sys2Proof Sys2Proof.Machine Sys2Proof.Claims

namespace Sys2Proof.Proofs.ChannelFsm

/-! ### Acting on one slot -/

section
variable (s : State) (i : ChanId) (d : Chan) (xs : List Strobe) (es : List Event)

theorem onlySlot_acted : OnlySlot s (s.acted i d xs es) i d :=
  Link.onlySlot_modChan s i fun _ => d

theorem sameBytes_acted : SameBytes s (s.acted i d xs es) := fun _ => rfl

theorem acted_silent_frame :
    s.acted i d [] es = { s with chan := (s.acted i d [] es).chan, evq := s.evq ++ es } := by
  simp [State.acted, State.modChan]

theorem acted_frame : s.acted i d xs [] = { s with chan := (s.acted i d xs []).chan, hwq := s.hwq ++ xs } := by
  simp [State.acted, State.modChan]

theorem acted_slot_frame : s.acted i d [] [] = { s with chan := (s.acted i d [] []).chan } := by
  simp [State.acted, State.modChan]

/-- The shape of most clauses: the slot rewritten, memory left alone, and the strobes the only other change. -/
theorem acted_effect :
    OnlySlot s (s.acted i d xs []) i d ∧ SameBytes s (s.acted i d xs []) ∧
      s.acted i d xs [] = { s with chan := (s.acted i d xs []).chan, hwq := s.hwq ++ xs } :=
  ⟨onlySlot_acted s i d xs [], sameBytes_acted s i d xs [], acted_frame s i d xs⟩

theorem modChan_eq_acted (f : Chan → Chan) : s.modChan i f = s.acted i (f (s.slot i)) [] [] := by
  simp [State.acted, State.modChan]

theorem modChan_modChan (f g : Chan → Chan) : (s.modChan i f).modChan i g = s.modChan i (fun c => g (f c)) := by
  simp [State.modChan, State.slot]

theorem rearm_eq_acted :
    rearm i s = s.acted i { s.slot i with hcchar := { (s.slot i).hcchar with chena := true } } [.enable i] [] := by
  simp [rearm, State.strobe, State.acted, State.modChan]

theorem haltRequest_eq_acted :
    haltRequest i s = s.acted i (halted (s.slot i)) (haltStrobes (s.slot i) i) [] := by
  rw [haltRequest_eq, haltStrobes]
  cases (s.slot i).hcchar.chdis <;> simp [State.acted, State.modChan, Chan.halting, halted, Config.maskHalt]

/-- A rewrite of the slot that leaves its control word, then a halt request. -/
theorem haltRequest_modChan {f : Chan → Chan} (control : (f (s.slot i)).hcchar = (s.slot i).hcchar) :
    haltRequest i (s.modChan i f) = s.acted i (halted (f (s.slot i))) (haltStrobes (s.slot i) i) [] := by
  rw [haltRequest_eq_acted, modChan_eq_acted, State.acted_acted, State.acted_slot_self]
  simp [haltStrobes, control]

end

theorem next_congr {t u : State} (h : t = u) : (.next t : Result) = .next u := congrArg _ h

/-! ### The causes (R191 to R200) -/

/-- Marking an event unless one is marked. -/
theorem mark_eq_some_getD (e : Option EpEvent) (d : EpEvent) : (if e = none then some d else e) = some (e.getD d) := by
  cases e <;> rfl

theorem causeXfrc_eq_acted (i : ChanId) (s : State) :
    causeXfrc i s = s.acted i
      { halted (s.slot i) with
        xfer := { (s.slot i).xfer with
          transferred := if (s.slot i).xfer.transferred = 0 then (s.slot i).xfer.length else (s.slot i).xfer.transferred
          event := some ((s.slot i).xfer.event.getD .transferComplete) } }
      (haltStrobes (s.slot i) i) [] := by
  rw [← mark_eq_some_getD]
  exact haltRequest_modChan s i rfl

theorem markNyet_eq_acted (i : ChanId) (s : State) :
    markNyet i s = s.acted i
      { s.slot i with xfer := { (s.slot i).xfer with event := some ((s.slot i).xfer.event.getD .handshakeNyet) } }
      [] [] := by
  rw [← mark_eq_some_getD]
  exact modChan_eq_acted s i _

section
variable {s : State} {i : ChanId}

theorem causeNak_suspends (h : (s.slot i).xfer.token = .input ∧ (s.slot i).ep.type = .interrupt) :
    causeNak i s = haltRequest i s := if_pos h

theorem causeNak_rearms (h : ¬((s.slot i).xfer.token = .input ∧ (s.slot i).ep.type = .interrupt)) :
    causeNak i s = rearm i s := if_neg h

theorem causeAck_rearms (token : (s.slot i).xfer.token = .input) (full : (s.slot i).xfer.lastRx = (s.slot i).ep.mps)
    (more : (s.slot i).xfer.transferred.toNat < (s.slot i).xfer.length.toNat) : causeAck i s = rearm i s := by
  simp [causeAck, token, full, more]

theorem causeAck_promotes (token : (s.slot i).xfer.token = .ping) :
    causeAck i s = s.acted i { s.slot i with xfer := { (s.slot i).xfer with token := .out } } [] [] := by
  rw [causeAck, token]
  exact modChan_eq_acted s i _

theorem causeAck_nothing (noPing : (s.slot i).xfer.token ≠ .ping)
    (noMore : ¬((s.slot i).xfer.token = .input ∧ (s.slot i).xfer.lastRx = (s.slot i).ep.mps ∧
      (s.slot i).xfer.transferred.toNat < (s.slot i).xfer.length.toNat)) : causeAck i s = s := by
  dsimp only [causeAck]
  split
  next token => exact if_neg fun more => noMore ⟨token, more⟩
  next token => exact absurd token noPing
  next => rfl

theorem causeChh_delivers {e : EpEvent} (active : (s.slot i).xfer.active = true)
    (event : (s.slot i).xfer.event = some e) :
    causeChh i s = s.acted i
      { s.slot i with
        hcintmsk := 0#11
        xfer := { (s.slot i).xfer with inProgress := false, active := false, event := none } }
      [] (if s.cbEp then [.ep (handleOf i) e] else []) := by
  rw [causeChh, active, event]
  cases cb : s.cbEp <;>
    simp [State.acted, State.emitEp, State.modChan, State.slot, cb, Chan.released, Chan.modXfer, Transfer.dropped]

theorem causeChh_parks (h : (s.slot i).xfer.active = false ∨ (s.slot i).xfer.event = none) :
    causeChh i s = s.acted i
      { s.slot i with hcintmsk := 0#11, xfer := { (s.slot i).xfer with inProgress := false } } [] [] := by
  unfold causeChh
  split
  next e active event => simp [active, event] at h
  next => exact modChan_eq_acted s i Chan.released

end

/-- Settles O43: the record is completed, then the halt requested. -/
theorem xfrcCompletesTheTransfer : Obligations.XfrcCompletesTheTransfer := by
  unfold Obligations.XfrcCompletesTheTransfer
  intro ch s
  exact ⟨_, next_congr (causeXfrc_eq_acted ch s), acted_effect s ch _ _⟩

/-- Settles O44: the event is determined, then the halt requested; the three bus errors are one meaning. -/
theorem stallAndBusErrorsAreTerminal : Obligations.StallAndBusErrorsAreTerminal := by
  unfold Obligations.StallAndBusErrorsAreTerminal
  intro ch s
  have stall := haltRequest_modChan s ch (f := fun c => c.modXfer fun x => { x with event := some .handshakeStall }) rfl
  have bus := next_congr
    (haltRequest_modChan s ch (f := fun c => c.modXfer fun x => { x with event := some .busError }) rfl)
  exact ⟨⟨_, next_congr stall, acted_effect s ch _ _⟩,
    ⟨_, bus, bus, bus, acted_effect s ch _ _⟩⟩

/-- Settles O45: the halt request or the re-arm, as the statement's condition selects. -/
theorem nakSuspendsOnlyInterruptIn : Obligations.NakSuspendsOnlyInterruptIn := by
  unfold Obligations.NakSuspendsOnlyInterruptIn
  intro ch s
  split
  case isTrue suspended =>
    exact ⟨_, next_congr ((causeNak_suspends suspended).trans (haltRequest_eq_acted s ch)),
      sameBytes_acted s ch _ _ _, onlySlot_acted s ch _ _ _, acted_frame s ch _ _⟩
  case isFalse rearmed =>
    exact ⟨_, next_congr ((causeNak_rearms rearmed).trans (rearm_eq_acted s ch)),
      sameBytes_acted s ch _ _ _, onlySlot_acted s ch _ _ _, acted_frame s ch _ _⟩

/-- Settles O46: one of the three cases of `CauseAck` per branch of the statement. -/
theorem ackRearmsOrPromotes : Obligations.AckRearmsOrPromotes := by
  unfold Obligations.AckRearmsOrPromotes
  intro ch s
  split
  case isTrue h =>
    obtain ⟨token, full, more⟩ := h
    exact ⟨_, next_congr ((causeAck_rearms token full more).trans (rearm_eq_acted s ch)),
      sameBytes_acted s ch _ _ _, onlySlot_acted s ch _ _ _, acted_frame s ch _ _⟩
  case isFalse noMore =>
    split
    case isTrue ping =>
      exact ⟨_, next_congr (causeAck_promotes ping),
        sameBytes_acted s ch _ _ _, onlySlot_acted s ch _ _ _, acted_slot_frame s ch _⟩
    case isFalse noPing => exact ⟨s, next_congr (causeAck_nothing noPing noMore), fun _ => rfl, rfl⟩

/-- Settles O47: whether an event of an active transfer is determined selects the case. -/
theorem chhDeliversOrParks : Obligations.ChhDeliversOrParks := by
  unfold Obligations.ChhDeliversOrParks
  intro ch s
  refine ⟨_, rfl, ?bytes, fun e active event => ?delivered, fun idle => ?parked⟩
  case delivered =>
    rw [causeChh_delivers active event]
    exact ⟨onlySlot_acted s ch _ _ _, acted_silent_frame s ch _ _⟩
  case parked =>
    rw [causeChh_parks idle]
    exact ⟨onlySlot_acted s ch _ _ _, acted_slot_frame s ch _⟩
  case bytes =>
    obtain ⟨d, xs, es, -, acts⟩ := actsOn_causeChh ch (s.slot ch) s.cbEp
    rw [acts s rfl rfl]
    exact sameBytes_acted s ch d xs es

/-- Settles O48: the mark rewrites the slot alone; both unnamed causes are the halt request. -/
theorem nyetMarksAndUnnamedCausesHalt : Obligations.NyetMarksAndUnnamedCausesHalt := by
  unfold Obligations.NyetMarksAndUnnamedCausesHalt
  intro ch s
  have halt := next_congr (haltRequest_eq_acted s ch)
  exact ⟨⟨_, next_congr (markNyet_eq_acted ch s), onlySlot_acted s ch _ _ _, sameBytes_acted s ch _ _ _,
      acted_slot_frame s ch _⟩,
    ⟨_, halt, halt, acted_effect s ch _ _⟩⟩

/-! ### The service of a channel (R189, R201) -/

section
variable {s : State} {i : ChanId}

theorem chanService_idle (idle : (s.slot i).xfer.inProgress = false) :
    chanService i s = s.acted i { s.slot i with hcint := 0#11, hcintmsk := 0#11 } [] [] := by
  have cleared : chanService i s = (ackCauses i s).modChan i (fun c => { c with hcintmsk := 0#11 }) := by
    simp [chanService, idle]
  rw [cleared, ackCauses, modChan_modChan]
  exact modChan_eq_acted s i _

theorem chanService_aborted (busy : (s.slot i).xfer.inProgress = true) (aborted : (s.slot i).xfer.active = false) :
    chanService i s =
      if (s.slot i).seen.getLsbD 1 then causeChh i (ackCauses i s) else haltRequest i (ackCauses i s) := by
  simp [chanService, busy, aborted]

theorem chanService_active (busy : (s.slot i).xfer.inProgress = true) (active : (s.slot i).xfer.active = true) :
    chanService i s = resolveCause i (s.slot i).seen
      (if (s.slot i).seen.getLsbD 6 then markNyet i (ackCauses i s) else ackCauses i s) := by
  simp [chanService, busy, active]

theorem causeChh_ackCauses (aborted : (s.slot i).xfer.active = false) :
    causeChh i (ackCauses i s) = s.acted i
      { s.slot i with hcint := 0#11, hcintmsk := 0#11, xfer := { (s.slot i).xfer with inProgress := false } }
      [] [] := by
  rw [ackCauses, causeChh_parks (.inl (by simpa using aborted)), modChan_eq_acted, State.acted_acted,
    State.acted_slot_self]
  rfl

/-- NYET alone is no branch of the chain: the transfer is marked and the service falls through (R195, R200). -/
theorem chanService_nyet (busy : (s.slot i).xfer.inProgress = true) (active : (s.slot i).xfer.active = true)
    (nyet : (s.slot i).seen = 0x040#11) :
    chanService i s = s.acted i
      { halted (s.slot i) with
        hcint := 0#11
        xfer := { (s.slot i).xfer with event := some ((s.slot i).xfer.event.getD .handshakeNyet) } }
      (haltStrobes (s.slot i) i) [] := by
  have fell : chanService i s = haltRequest i (markNyet i (ackCauses i s)) := by
    rw [chanService_active busy active, nyet]
    rfl
  rw [fell, markNyet, ackCauses, modChan_modChan, haltRequest_modChan s i rfl, ← mark_eq_some_getD]
  rfl

end

/-- Settles O10: one equation of `ChanService` per clause. -/
theorem serviceWithoutAResolvedCause : Obligations.ServiceWithoutAResolvedCause := by
  unfold Obligations.ServiceWithoutAResolvedCause
  intro s i
  refine ⟨fun idle => ?idle, fun busy aborted chh => ?ended, fun busy aborted noChh => ?again,
    fun busy active nyet => ?nyet⟩
  case idle =>
    rw [chanService_idle idle]
    exact ⟨onlySlot_acted s i _ _ _, acted_slot_frame s i _⟩
  case ended =>
    rw [chanService_aborted busy aborted, if_pos chh, causeChh_ackCauses aborted]
    exact ⟨onlySlot_acted s i _ _ _, acted_slot_frame s i _⟩
  case again =>
    rw [chanService_aborted busy aborted, if_neg (Bool.eq_false_iff.mp noChh), ackCauses, haltRequest_modChan s i rfl]
    exact ⟨onlySlot_acted s i _ _ _, acted_frame s i _ _⟩
  case nyet =>
    rw [chanService_nyet busy active nyet]
    exact ⟨onlySlot_acted s i _ _ _, acted_frame s i _ _⟩

/-! ### The cause a seen word resolves to (R190) -/

/-- The chain of `firstCause`, written as the choices of the decoder. -/
theorem firstCause_eq (ch : ChanId) (w : CauseWord) : firstCause ch w =
    if w.getLsbD 0 then some (.hcintXfrc ch)
    else if w.getLsbD 3 then some (.hcintStall ch)
    else if w.getLsbD 4 then some (.hcintNak ch)
    else if w.getLsbD 5 then some (.hcintAck ch)
    else if w.getLsbD 7 then some (.hcintTxerr ch)
    else if w.getLsbD 8 then some (.hcintBberr ch)
    else if w.getLsbD 10 then some (.hcintDterr ch)
    else if w.getLsbD 1 then some (.hcintChh ch)
    else if w.getLsbD 2 then some (.hcintRsv2 ch)
    else if w.getLsbD 9 then some (.hcintRsv9 ch)
    else none := by
  have choose (k : Nat) (c : Instr) (rest : List (Nat × Instr)) :
      (((k, c) :: rest).find? (fun p => w.getLsbD p.1)).map Prod.snd =
        if w.getLsbD k then some c else (rest.find? (fun p => w.getLsbD p.1)).map Prod.snd := by
    rw [List.find?_cons]
    cases w.getLsbD k <;> rfl
  simp only [firstCause, causeOrder, choose]
  rfl

theorem bit_setWidth (w : CauseWord) (k : Nat) : bit (w.setWidth 32) k = w.getLsbD k :=
  BitVec.getLsbD_setWidth' (by decide) w k

theorem decodeHcint_eq_firstCause (ch : ChanId) {w : CauseWord} (noNyet : w.getLsbD 6 = false) :
    decodeHcint ch (w.setWidth 32) = firstCause ch w := by
  rw [firstCause_eq]
  simp only [decodeHcint, bit_setWidth, noNyet, Bool.false_eq_true, if_false]

/-- One choice of the chain: the named instruction has the branch's meaning, and so have the later ones. -/
theorem exec_of_choice {p : Prop} [Decidable p] {i c : Instr} {rest : Option Instr} {s here later : State}
    (branch : exec c s = .next here) (others : rest = some i → exec i s = .next later)
    (h : (if p then some c else rest) = some i) : exec i s = .next (if p then here else later) := by
  by_cases hp : p
  · rw [if_pos hp] at h ⊢
    cases h
    exact branch
  · rw [if_neg hp] at h ⊢
    exact others h

/-- The branch `resolveCause` takes is the meaning of the first cause. -/
theorem exec_firstCause {ch : ChanId} {w : CauseWord} {i : Instr} (s : State) (h : firstCause ch w = some i) :
    exec i s = .next (resolveCause ch w s) := by
  have unnamed (h : (if w.getLsbD 2 then some (.hcintRsv2 ch) else if w.getLsbD 9 then some (.hcintRsv9 ch) else none) =
      some i) : exec i s = .next (fallThrough ch s) := by
    split at h
    · cases h; rfl
    · split at h <;> cases h
      rfl
  rw [firstCause_eq] at h
  exact exec_of_choice rfl (exec_of_choice rfl (exec_of_choice rfl (exec_of_choice rfl (exec_of_choice rfl
    (exec_of_choice rfl (exec_of_choice rfl (exec_of_choice rfl unnamed))))))) h

theorem firstCause_zero (ch : ChanId) : firstCause ch 0#11 = none := by
  simp [firstCause_eq]

theorem pending_of_firstCause {c : Chan} {ch : ChanId} {i : Instr} (h : firstCause ch c.seen = some i) :
    c.pending = true := by
  refine bne_iff_ne.mpr fun unseen => ?_
  rw [unseen, firstCause_zero] at h
  cases h

/-! ### An invocation with one pending channel (R221, R222, R226) -/

theorem runList_singleton (i : Instr) (s : State) : runList [i] s = exec i s := by
  unfold runList
  cases exec i s <;> rfl

/-- The service of an active transfer: a NYET first, then the one branch of the chain (R189, R190). -/
theorem runList_eq_chanService {s : State} {ch : ChanId} {i : Instr} (busy : (s.slot ch).xfer.inProgress = true)
    (active : (s.slot ch).xfer.active = true) (resolved : firstCause ch (s.slot ch).seen = some i) :
    runList ((if (s.slot ch).seen.getLsbD 6 then [.hcintNyet ch] else []) ++ [i]) (ackCauses ch s) =
      .next (chanService ch s) := by
  rw [chanService_active busy active, ← exec_firstCause _ resolved, ← runList_singleton]
  cases (s.slot ch).seen.getLsbD 6 <;> rfl

theorem chanService_slot_other {i j : ChanId} (s : State) (h : j ≠ i) : (chanService i s).slot j = s.slot j := by
  obtain ⟨d, xs, es, -, acts⟩ := actsOn_chanService i (s.slot i) s.cbEp
  rw [acts s rfl rfl]
  exact (onlySlot_acted s i d xs es).2 j h

theorem servicePending_quiet {s : State} {i : ChanId} (h : (s.slot i).pending = false) : servicePending i s = s :=
  if_neg (Bool.eq_false_iff.mp h)

/-- A scan over channels with nothing pending does nothing. -/
theorem foldl_servicePending_quiet {s : State} {l : List ChanId} (h : ∀ j ∈ l, (s.slot j).pending = false) :
    l.foldl (fun t j => servicePending j t) s = s := by
  induction l with
  | nil => rfl
  | cons j rest ih =>
    rw [List.forall_mem_cons] at h
    rw [List.foldl_cons, servicePending_quiet h.1]
    exact ih h.2

/-- With one pending channel the channel pass is that channel's service: the scan meets it once. -/
theorem channelPass_single {s : State} {ch : ChanId} (pending : (s.slot ch).pending = true)
    (others : ∀ j, j ≠ ch → (s.slot j).pending = false) : channelPass s = chanService ch s := by
  obtain ⟨before, after, scan⟩ := List.append_of_mem (mem_chanIds ch)
  have once : (before ++ ch :: after).Nodup := scan ▸ (by decide : chanIds.Nodup)
  obtain ⟨notBefore, notAfter⟩ : ch ∉ before ∧ ch ∉ after := by
    simpa using (List.nodup_middle.mp once).notMem
  have quietBefore (j : ChanId) (hj : j ∈ before) : (s.slot j).pending = false :=
    others j fun e => notBefore (e ▸ hj)
  have quietAfter (j : ChanId) (hj : j ∈ after) : ((chanService ch s).slot j).pending = false := by
    have distinct : j ≠ ch := fun e => notAfter (e ▸ hj)
    rw [chanService_slot_other s distinct]
    exact others j distinct
  rw [channelPass, scan, List.foldl_append, foldl_servicePending_quiet quietBefore, List.foldl_cons, servicePending,
    if_pos pending]
  exact foldl_servicePending_quiet quietAfter

/-- A snapshot with the channel source alone asks for the channel pass alone. -/
theorem dispatcher_channelPass {s : State} (h : snapshot s = 0x02000000#32) : dispatcher s = .next (channelPass s) := by
  unfold dispatcher
  rw [h]
  rfl

theorem takeInterrupt_channelPass {s : State} (enabled : s.irqEn = true) (h : snapshot s = 0x02000000#32) :
    takeInterrupt s = .next (channelPass s) := by
  have asserted : irqLine s = true := by simp [irqLine, enabled, h]
  rw [takeInterrupt, if_pos asserted, dispatcher_channelPass h]

/-- Settles O9: the invocation is the channel pass, the pass the one channel's service, and the service the run of the
resolved cause on the acknowledged channel. -/
theorem interruptStepRunsTheResolvedCause : Obligations.InterruptStepRunsTheResolvedCause := by
  unfold Obligations.InterruptStepRunsTheResolvedCause
  refine ⟨fun ch _ => decodeHcint_eq_firstCause ch, ?_⟩
  intro s q ch i head enabled source others busy active resolved
  let served : State := { s with inbox := q }
  calc step s = takeInterrupt served := Link.step_of_inbox_cons head
    _ = .next (channelPass served) := takeInterrupt_channelPass enabled source
    _ = .next (chanService ch served) := next_congr (channelPass_single (pending_of_firstCause resolved) others)
    _ = _ := (runList_eq_chanService (s := served) busy active resolved).symm

/-! ### EP_TRANSFER_RESULT (R188) -/

/-- Settles O40: the two checks of the command. -/
theorem transferResultReturnsTheCount : Obligations.TransferResultReturnsTheCount := by
  unfold Obligations.TransferResultReturnsTheCount
  intro h rsv s
  constructor
  · intro i legal names
    simp only [exec, execCmdEpTransferResult, legal, ChannelTable.boundChan_eq_some_iff.mpr names]
    rfl
  · intro reasons
    rw [← ChannelTable.boundChan_eq_none_iff] at reasons
    simp only [exec, execCmdEpTransferResult]
    split
    · rfl
    next legal =>
      rw [reasons.resolve_left legal]
      rfl

/-! ### `Program` with the numbers written out (R182, R184) -/

theorem programmed_eq_onHardware (c : Chan) : c.programmed = onHardware c := rfl

theorem payloadWords_zero (m : Memory) (a : Word) : payloadWords m a 0 = [] := rfl

/-- `Program` strobes ENABLE; apart from the slots and the transmit traces nothing else changes. -/
theorem program_frame (i : ChanId) (s : State) :
    program i s = { s with chan := (program i s).chan, txq := (program i s).txq, hwq := s.hwq ++ [.enable i] } := by
  rw [program_eq]

/-- An outgoing remainder is pushed; with none left there are no words to push. -/
theorem program_tx (i j : ChanId) (s : State) :
    (program i s).tx j = if j = i then s.tx i ++ pushedBy s (s.slot i) else s.tx j := by
  dsimp only [program, pushedBy]
  by_cases input : (s.slot i).xfer.token = .input
  · by_cases hj : j = i <;> simp [input, enableChan, hj]
  · by_cases outgoing : 0 < remaining (s.slot i).xfer
    · rw [if_pos ⟨input, outgoing⟩, if_neg input]
      exact State.pushTx_tx (enableChan i s) i j _
    · have none : (s.slot i).xfer.length.toNat - (s.slot i).xfer.transferred.toNat = 0 :=
        Nat.eq_zero_of_not_pos outgoing
      by_cases hj : j = i <;> simp [input, outgoing, enableChan, none, payloadWords_zero, hj]

/-! ### EP_TRANSFER (R181) -/

theorem tokenOfCode_eq_none_iff {b : BitVec 4} : tokenOfCode b = none ↔ b.toNat = 0 ∨ 4 < b.toNat := by
  revert b; decide

theorem toggleOfCode_eq_none_iff {b : BitVec 4} : toggleOfCode b = none ↔ b.toNat = 0 ∨ 2 < b.toNat := by
  revert b; decide

theorem code_of_tokenOfCode {b : BitVec 4} {token : Token} : tokenOfCode b = some token → token.code = b := by
  revert b; cases token <;> decide

theorem code_of_toggleOfCode {b : BitVec 4} {toggle : Toggle} : toggleOfCode b = some toggle → toggle.code = b := by
  revert b; cases toggle <;> decide

theorem exists_tokenOfCode {b : BitVec 4} (low : 1 ≤ b.toNat) (high : b.toNat ≤ 4) :
    ∃ token, tokenOfCode b = some token :=
  Option.ne_none_iff_exists'.mp (mt tokenOfCode_eq_none_iff.mp (by omega))

theorem exists_toggleOfCode {b : BitVec 4} (low : 1 ≤ b.toNat) (high : b.toNat ≤ 2) :
    ∃ toggle, toggleOfCode b = some toggle :=
  Option.ne_none_iff_exists'.mp (mt toggleOfCode_eq_none_iff.mp (by omega))

theorem token_code_eq_in_iff {token : Token} : token.code = 3#4 ↔ token = .input := by
  cases token <;> decide

section
variable {s : State} {h : Byte} {tok tog : BitVec 4} {buf len : Word} {rsv : BitVec 8}

theorem execCmdEpTransfer_refused
    (reasons : rsv ≠ 0 ∨ boundChan s h = none ∨ tokenOfCode tok = none ∨ toggleOfCode tog = none ∨
      (buf = 0 ∧ len ≠ 0)) :
    execCmdEpTransfer h tok tog buf len rsv s = .next (answered s 0xFFFFFFFB#32) := by
  unfold execCmdEpTransfer
  split
  · rfl
  next legal =>
    split
    · rfl
    next bound =>
      split
      next token toggle =>
        split
        · rfl
        -- Every check has passed, which contradicts each of the reasons.
        next buffer => simp_all
      · rfl

/-- With its operands in order, the command looks at the port, then at the channel (R181, R286). -/
theorem execCmdEpTransfer_legal {i : ChanId} {token : Token} {toggle : Toggle} (legal : rsv = 0)
    (bound : boundChan s h = some i) (htok : tokenOfCode tok = some token) (htog : toggleOfCode tog = some toggle)
    (buffer : buf ≠ 0 ∨ len = 0) :
    execCmdEpTransfer h tok tog buf len rsv s =
      if !s.port.connected then .next (s.ret stInvalid)
      else if (s.slot i).xfer.active || (s.slot i).xfer.inProgress then .next (s.ret stBusy)
      else .next ((enqueue i token toggle buf len s).ret stOk) := by
  have noNull : ¬(buf = 0 ∧ len ≠ 0) := by tauto
  simp only [execCmdEpTransfer, legal, bound, htok, htog]
  exact if_neg noNull

end

section
variable (i : ChanId) (token : Token) (toggle : Toggle) (buf len : Word) (s : State)

theorem onlySlot_enqueue (idle : (s.slot i).xfer.inProgress = false) :
    OnlySlot s (enqueue i token toggle buf len s) i (onHardware { s.slot i with
      xfer := ⟨buf, len, 0#32, token, toggle, (s.slot i).ep.reload, true, false, none, 0#11⟩ }) := by
  constructor
  · simp [enqueue, Chan.modXfer, newTransfer, idle, programmed_eq_onHardware]
  · exact fun j hj => by simp [enqueue, hj]

theorem enqueue_tx (j : ChanId) :
    (enqueue i token toggle buf len s).tx j =
      if j = i ∧ token.code ≠ 3#4 then s.tx j ++ payloadWords s.mem buf len.toNat else s.tx j := by
  rw [enqueue, program_tx]
  by_cases hj : j = i <;> by_cases input : token = .input <;>
    simp [hj, input, token_code_eq_in_iff, pushedBy, Chan.modXfer, newTransfer]

theorem enqueue_frame : enqueue i token toggle buf len s = { s with
    chan := (enqueue i token toggle buf len s).chan
    txq := (enqueue i token toggle buf len s).txq
    hwq := s.hwq ++ [.enable i] } :=
  program_frame i _

theorem sameBytes_enqueue : SameBytes s (enqueue i token toggle buf len s) := by
  rw [enqueue_frame]
  exact fun _ => rfl

end

/-- Settles O39: the checks in their order; an accepted transfer is `Program` on the record just written. -/
theorem transferProgramsTheChannel : Obligations.TransferProgramsTheChannel := by
  unfold Obligations.TransferProgramsTheChannel
  constructor
  · intro h tok tog buf len rsv s
    constructor
    · intro reasons
      refine execCmdEpTransfer_refused ?_
      rwa [ChannelTable.boundChan_eq_none_iff, tokenOfCode_eq_none_iff, toggleOfCode_eq_none_iff, or_assoc, or_assoc]
    · intro i legal names tokLow tokHigh togLow togHigh buffer
      obtain ⟨token, htok⟩ := exists_tokenOfCode tokLow tokHigh
      obtain ⟨toggle, htog⟩ := exists_toggleOfCode togLow togHigh
      have checked := execCmdEpTransfer_legal legal (ChannelTable.boundChan_eq_some_iff.mpr names) htok htog buffer
      constructor
      · intro disconnected
        refine checked.trans (if_pos ?_)
        simp [disconnected]
      · intro connected occupied
        refine checked.trans ((if_neg ?_).trans (if_pos ?_))
        · simp [connected]
        · simpa using occupied
  · intro h tok tog buf len rsv s i legal names tokLow tokHigh togLow togHigh buffer connected inactive idle
    obtain ⟨token, htok⟩ := exists_tokenOfCode tokLow tokHigh
    obtain ⟨toggle, htog⟩ := exists_toggleOfCode togLow togHigh
    have checked := execCmdEpTransfer_legal legal (ChannelTable.boundChan_eq_some_iff.mpr names) htok htog buffer
    have code := code_of_tokenOfCode htok
    refine ⟨(enqueue i token toggle buf len s).ret stOk, token, toggle, ?accepted, code, code_of_toggleOfCode htog,
      onlySlot_enqueue i token toggle buf len s idle, ?pushed, sameBytes_enqueue i token toggle buf len s,
      congrArg (State.ret · stOk) (enqueue_frame i token toggle buf len s)⟩
    case accepted => exact checked.trans (by simp [connected, inactive, idle])
    case pushed =>
      intro j
      rw [← code]
      exact enqueue_tx i token toggle buf len s j

end Sys2Proof.Proofs.ChannelFsm
end

section
/-! SUPPORT. One invocation of the dispatcher and its disconnect and channel passes (43_interrupt_dispatcher.md R220 to R226):
an invocation is the run of the decoded passes, and the channel pass the fold of its pending channels' services. -/

open Sys2Proof Sys2Proof.Machine Sys2Proof.Claims

namespace Sys2Proof.Proofs.Dispatcher

/-! ### An invocation runs the decoded passes (R221, R222) -/

theorem filter_passes_cons (g : Word) (k : Nat) (i : Instr) (rest : List (Nat × Instr)) :
    (((k, i) :: rest).filter (fun p => g.getLsbD p.1)).map Prod.snd =
      keepIf (g.getLsbD k) i ++ (rest.filter (fun p => g.getLsbD p.1)).map Prod.snd := by
  rw [List.filter_cons, keepIf]
  cases g.getLsbD k <;> rfl

/-- The decoder keeps the passes in the order of R222. -/
theorem decodeGint_eq_filter (g : Word) :
    decodeGint g = (passOrder.filter (fun p => g.getLsbD p.1)).map Prod.snd := by
  simp only [decodeGint, bit, passOrder, filter_passes_cons, List.filter_nil, List.map_nil, List.append_nil,
    List.append_assoc]

theorem keepIf_true_append (i : Instr) (rest : List Instr) : keepIf true i ++ rest = i :: rest := rfl

/-- A pass that always has a next state, then the passes after it. -/
theorem runList_keepIf_append {i : Instr} {f : State → State} (next : ∀ s, exec i s = .next (f s)) (b : Bool)
    (rest : List Instr) (s : State) : runList (keepIf b i ++ rest) s = runList rest (passIf b f s) := by
  cases b
  case false => rfl
  case true =>
    rw [keepIf_true_append, runList, next, passIf, if_pos rfl]

/-- The dispatcher and the run of the decoded passes agree: only the receive pass between the others can refuse. -/
theorem dispatcher_eq_runList (s : State) : dispatcher s = runList (decodeGint (snapshot s)) s := by
  have port := runList_keepIf_append (i := .gintHprtint) (f := portService) fun _ => rfl
  have disc := runList_keepIf_append (i := .gintDiscint) (f := disconnectPass) fun _ => rfl
  have chan := runList_keepIf_append (i := .gintHcint) (f := channelPass) fun _ => rfl
  have sof := runList_keepIf_append (i := .gintSof) (f := sofPass) fun _ => rfl
  have last (g : Word) (t : State) : runList (keepIf (bit g 25) .gintHcint ++ keepIf (bit g 3) .gintSof) t =
      .next (passIf (bit g 3) sofPass (passIf (bit g 25) channelPass t)) := by
    rw [chan, ← List.append_nil (keepIf _ _), sof, runList]
  rw [decodeGint, List.append_assoc, List.append_assoc, List.append_assoc, port, disc, dispatcher]
  cases bit (snapshot s) 4
  case false => exact (last _ _).symm
  case true =>
    have receive (t : State) : exec .gintRxflvl t = rxPass t := rfl
    rw [keepIf_true_append, runList, receive, if_pos rfl]
    cases rxPass (passIf (bit (snapshot s) 29) disconnectPass (passIf (bit (snapshot s) 24) portService s))
    case next t => exact (last _ t).symm
    all_goals rfl

/-- Settles O7: an asserted line lets the dispatcher run, and it runs the passes its snapshot decodes to. -/
theorem interruptStepRunsTheDecodedPasses : Obligations.InterruptStepRunsTheDecodedPasses := by
  unfold Obligations.InterruptStepRunsTheDecodedPasses
  refine ⟨decodeGint_eq_filter, fun s q head asserted => ?_⟩
  let served : State := { s with inbox := q }
  calc step s = takeInterrupt served := Link.step_of_inbox_cons head
    _ = dispatcher served := if_pos asserted
    _ = runList (decodeGint (snapshot served)) served := dispatcher_eq_runList served
    _ = _ := congrArg (runList · served) (decodeGint_eq_filter _)

/-! ### The disconnect pass (R224) -/

theorem disconnected_eq (c : Chan) : c.disconnected =
    if c.bound = true ∧ c.xfer.active = true then
      { c with xfer := { c.xfer with active := false, inProgress := false, event := none } }
    else c := by
  simp only [Chan.disconnected, Bool.and_eq_true]

theorem emitPort_eq (s : State) (code : PortEvent) :
    s.emitPort code = { s with evq := s.evq ++ (if s.cbPort then [.port code] else []) } := by
  cases attached : s.cbPort <;> simp [State.emitPort, attached]

/-- Settles O52: every slot by `Chan.disconnected`, and the event by the sink. -/
theorem disconnectEndsEveryTransfer : Obligations.DisconnectEndsEveryTransfer := by
  unfold Obligations.DisconnectEndsEveryTransfer
  intro s
  refine ⟨disconnectPass s, rfl, fun i => ?slots, fun _ => rfl, ?frame⟩
  case slots =>
    rw [← disconnected_eq]
    exact State.mapChans_slot s Chan.disconnected i
  case frame =>
    rw [disconnectPass, emitPort_eq]
    rfl

/-! ### A service leaves no raw cause (R189) -/

/-- Per channel, its raw cause word (R28). -/
def rawCauses (s : State) (i : ChanId) : CauseWord := (s.slot i).hcint

theorem modChan_rawCauses {s : State} {i : ChanId} {f : Chan → Chan} (hf : ∀ c, (f c).hcint = c.hcint) :
    rawCauses (s.modChan i f) = rawCauses s := by
  funext j
  by_cases hj : j = i
  · subst hj; simp [rawCauses, hf]
  · simp [rawCauses, hj]

@[simp] theorem modXfer_rawCauses (i : ChanId) (f : Transfer → Transfer) (s : State) :
    rawCauses (s.modChan i (fun c => c.modXfer f)) = rawCauses s :=
  modChan_rawCauses fun _ => rfl

@[simp] theorem haltRequest_rawCauses (i : ChanId) (s : State) : rawCauses (haltRequest i s) = rawCauses s := by
  rw [haltRequest_eq]
  exact modChan_rawCauses (f := Chan.halting) fun _ => rfl

@[simp] theorem strobe_rawCauses (s : State) (x : Strobe) : rawCauses (s.strobe x) = rawCauses s := rfl

@[simp] theorem rearm_rawCauses (i : ChanId) (s : State) : rawCauses (rearm i s) = rawCauses s := by
  simp [rearm, modChan_rawCauses]

@[simp] theorem causeAck_rawCauses (i : ChanId) (s : State) : rawCauses (causeAck i s) = rawCauses s := by
  dsimp only [causeAck]
  split
  · simp [apply_ite rawCauses]
  · exact modXfer_rawCauses i _ s
  · rfl

@[simp] theorem causeChh_rawCauses (i : ChanId) (s : State) : rawCauses (causeChh i s) = rawCauses s := by
  have released : rawCauses (s.modChan i Chan.released) = rawCauses s := modChan_rawCauses fun _ => rfl
  dsimp only [causeChh]
  split
  · exact (modXfer_rawCauses i _ _).trans released
  · exact released

/-- No branch of the chain raises or drops a raw cause (R190 to R200). -/
@[simp] theorem resolveCause_rawCauses (i : ChanId) (w : CauseWord) (s : State) :
    rawCauses (resolveCause i w s) = rawCauses s := by
  simp [resolveCause, causeXfrc, causeStall, causeNak, busFailure, fallThrough, determine, apply_ite rawCauses]

/-- The acknowledge is all a service does to raw causes. -/
theorem chanService_rawCauses (i : ChanId) (s : State) : rawCauses (chanService i s) = rawCauses (ackCauses i s) := by
  have masked (t : State) : rawCauses (t.modChan i (fun c => { c with hcintmsk := 0#11 })) = rawCauses t :=
    modChan_rawCauses fun _ => rfl
  simp [chanService, markNyet, masked, apply_ite rawCauses]

theorem chanService_pending (i : ChanId) (s : State) : ((chanService i s).slot i).pending = false := by
  have acknowledged : ((chanService i s).slot i).hcint = 0#11 :=
    (congrFun (chanService_rawCauses i s) i).trans (by simp [rawCauses, ackCauses])
  simp [Chan.pending, Chan.seen, acknowledged]

/-! ### The channel pass as the fold of its services (R226) -/

/-- Actions on several slots, one after the other. -/
def actedAll (d : ChanId → Chan) (xs : ChanId → List Strobe) (es : ChanId → List Event) (l : List ChanId)
    (s : State) : State :=
  l.foldl (fun t i => t.acted i (d i) (xs i) (es i)) s

section
variable {d : ChanId → Chan} {xs : ChanId → List Strobe} {es : ChanId → List Event}

theorem actedAll_slot (l : List ChanId) (s : State) (j : ChanId) :
    (actedAll d xs es l s).slot j = if j ∈ l then d j else s.slot j := by
  induction l generalizing s with
  | nil => rfl
  | cons i rest ih =>
    have one : (s.acted i (d i) (xs i) (es i)).slot j = if j = i then d i else s.slot j :=
      State.modChan_slot s i j fun _ => d i
    refine (ih _).trans ?_
    rw [one]
    by_cases hj : j = i <;> simp [hj]

/-- Every action appends its strobes and its events; the other fields but the slots keep. -/
theorem actedAll_frame (l : List ChanId) (s : State) :
    actedAll d xs es l s = { s with
      chan := (actedAll d xs es l s).chan
      hwq := s.hwq ++ l.flatMap xs
      evq := s.evq ++ l.flatMap es } := by
  induction l generalizing s with
  | nil => simp [actedAll]
  | cons i rest ih =>
    refine (ih (s.acted i (d i) (xs i) (es i))).trans ?_
    simp [State.acted, State.modChan, actedAll]

/-- A scan over distinct channels finds each as it was at the start, so it serves those then pending, each as if alone. -/
theorem foldl_servicePending {c : ChanId → Chan} {cb : Bool}
    (acts : ∀ i (s : State), s.slot i = c i → s.cbEp = cb → chanService i s = s.acted i (d i) (xs i) (es i))
    {l : List ChanId} (distinct : l.Nodup) {s : State} (slots : ∀ i ∈ l, s.slot i = c i) (sink : s.cbEp = cb) :
    l.foldl (fun t i => servicePending i t) s = actedAll d xs es (l.filter (fun i => (c i).pending)) s := by
  induction l generalizing s with
  | nil => rfl
  | cons i rest ih =>
    obtain ⟨fresh, distinctRest⟩ := List.nodup_cons.mp distinct
    obtain ⟨slot, slotsRest⟩ := List.forall_mem_cons.mp slots
    rw [List.foldl_cons, List.filter_cons, servicePending, slot]
    cases (c i).pending
    case false => exact ih distinctRest slotsRest sink
    case true =>
      have kept (j : ChanId) (hj : j ∈ rest) : (s.acted i (d i) (xs i) (es i)).slot j = c j :=
        ((ChannelFsm.onlySlot_acted s i _ _ _).2 j fun e => fresh (e ▸ hj)).trans (slotsRest j hj)
      rw [if_pos rfl, if_pos rfl, acts i s slot sink]
      exact ih distinctRest kept sink

/-- The channel pass acts, in ascending order, on the channels pending at its start. -/
theorem channelPass_eq_actedAll {s : State}
    (acts : ∀ i (t : State), t.slot i = s.slot i → t.cbEp = s.cbEp → chanService i t = t.acted i (d i) (xs i) (es i)) :
    channelPass s = actedAll d xs es ((List.finRange 16).filter (fun i => (s.slot i).pending)) s := by
  rw [channelPass, ChannelTable.chanIds_eq_finRange]
  exact foldl_servicePending acts (List.nodup_finRange 16) (fun _ _ => rfl) rfl

end

/-- Settles O53: what each service does is fixed by its slot and the sink, and the pass is the fold of these actions. -/
theorem channelPassServesEachPendingChannel : Obligations.ChannelPassServesEachPendingChannel := by
  unfold Obligations.ChannelPassServesEachPendingChannel
  intro s
  choose d xs es short acts using fun i => actsOn_chanService i (s.slot i) s.cbEp
  have pass : channelPass s = _ := channelPass_eq_actedAll acts
  have alone (i : ChanId) : chanService i s = s.acted i (d i) (xs i) (es i) := acts i s rfl rfl
  have slots (i : ChanId) : (channelPass s).slot i =
      if (s.slot i).pending = true then (chanService i s).slot i else s.slot i := by
    simp [pass, actedAll_slot, alone]
  refine ⟨channelPass s, xs, es, rfl, fun i _ => ?service, slots, fun i => ?served, ?bytes, ?frame⟩
  case service =>
    rw [alone]
    exact ⟨rfl, rfl, short i⟩
  case served =>
    rw [slots]
    split
    case isTrue => exact chanService_pending i s
    case isFalse quiet => exact Bool.eq_false_iff.mpr quiet
  case bytes =>
    intro a
    rw [pass, actedAll_frame]
    rfl
  case frame =>
    rw [pass]
    exact actedAll_frame _ s

end Sys2Proof.Proofs.Dispatcher
end

section
/-! SUPPORT. What one tick leaves of the channel it looks at, and the start-of-frame pass as the scan of all sixteen
(44_retry_scheduler.md R240 to R243, 43_interrupt_dispatcher.md R227). -/

open Sys2Proof Sys2Proof.Machine Sys2Proof.Claims

namespace Sys2Proof.Proofs.Scheduler

/-! ### The tests of a tick on a slot (R240, R241) -/

theorem parked_eq_isParked (c : Chan) : c.parked = isParked c := rfl

theorem periodic_eq_isPeriodic (c : Chan) : c.ep.type.periodic = isPeriodic c := by
  rw [isPeriodic]
  cases c.ep.type <;> rfl

theorem countDown_eq_zero_iff {n : BitVec 16} : countDown n = 0#16 ↔ n.toNat ≤ 1 := by
  unfold countDown
  bv_omega

theorem countDown_eq_sub_one {n : BitVec 16} (h : ¬n.toNat ≤ 1) : countDown n = n - 1 := by
  unfold countDown
  bv_omega

section
variable {c : Chan}

theorem isRearmed_of_not_parked (h : isParked c = false) : isRearmed c = false := by simp [isRearmed, h]

theorem isRearmed_of_not_periodic (parked : isParked c = true) (h : isPeriodic c = false) : isRearmed c = true := by
  simp [isRearmed, parked, h]

theorem isRearmed_of_periodic (parked : isParked c = true) (h : isPeriodic c = true) :
    isRearmed c = decide (c.xfer.countdown.toNat ≤ 1) := by
  simp [isRearmed, parked, h]

end

/-! ### One channel (R240 to R242) -/

/-- A slot rewritten as it stands. -/
theorem modChan_slot_self (i : ChanId) (s : State) : (s.modChan i fun _ => s.slot i) = s := by
  simp [State.modChan, State.slot]

/-- `Program` neither reads nor writes the countdown (R242), so setting it first is lost when the slot is
rewritten after. -/
theorem program_setCountdown_modChan (i : ChanId) (n : BitVec 16) (d : Chan) (s : State) :
    ((program i (s.modChan i (Chan.setCountdown n))).modChan i fun _ => d) = (program i s).modChan i fun _ => d := by
  simp [program_eq, State.modChan, State.slot, State.tx, Chan.setCountdown, Chan.modXfer, remaining]

section
variable {c : Chan}

theorem afterTick_of_not_parked (h : isParked c = false) : afterTick c = c := by
  simp [afterTick, isRearmed_of_not_parked h, h]

theorem afterTick_of_not_periodic (parked : isParked c = true) (h : isPeriodic c = false) :
    afterTick c = c.programmed := by
  simp [afterTick, isRearmed_of_not_periodic parked h, h, ChannelFsm.programmed_eq_onHardware, onHardware]

theorem afterTick_of_done (parked : isParked c = true) (periodic : isPeriodic c = true)
    (h : c.xfer.countdown.toNat ≤ 1) : afterTick c = c.programmed.setCountdown c.ep.reload := by
  simp [afterTick, isRearmed_of_periodic parked periodic, periodic, h, ChannelFsm.programmed_eq_onHardware,
    Chan.setCountdown, Chan.modXfer]

theorem afterTick_of_waiting (parked : isParked c = true) (periodic : isPeriodic c = true)
    (h : ¬c.xfer.countdown.toNat ≤ 1) : afterTick c = c.setCountdown (countDown c.xfer.countdown) := by
  simp [afterTick, isRearmed_of_periodic parked periodic, parked, h, countDown_eq_sub_one h, Chan.setCountdown,
    Chan.modXfer]

end

/-- `PeriodicTick` at zero: programmed anew, and the countdown reloaded (R241). -/
theorem periodicTick_of_done {i : ChanId} {s : State} (h : (s.slot i).xfer.countdown.toNat ≤ 1) :
    periodicTick i s = (program i s).modChan i fun _ => (s.slot i).programmed.setCountdown (s.slot i).ep.reload := by
  let u := s.modChan i (Chan.setCountdown (countDown (s.slot i).xfer.countdown))
  have slot : (program i u).slot i = (u.slot i).programmed := by simp
  calc periodicTick i s
    _ = (program i u).modChan i fun c => c.setCountdown c.ep.reload := if_pos (countDown_eq_zero_iff.mpr h)
    _ = (program i u).modChan i fun _ => (u.slot i).programmed.setCountdown (u.slot i).programmed.ep.reload := by
      rw [← slot]
      rfl
    _ = (program i u).modChan i fun _ => (s.slot i).programmed.setCountdown (s.slot i).ep.reload := by
      rw [State.modChan_slot, if_pos rfl]
      rfl
    _ = _ := program_setCountdown_modChan i _ _ s

/-- `PeriodicTick` above zero: counted down by one (R241). -/
theorem periodicTick_of_waiting {i : ChanId} {s : State} (h : ¬(s.slot i).xfer.countdown.toNat ≤ 1) :
    periodicTick i s = s.modChan i fun c => c.setCountdown (countDown c.xfer.countdown) :=
  if_neg (mt countDown_eq_zero_iff.mp h)

/-- A tick programs the channel if it re-arms it, and leaves the slot of R240 to R242. -/
theorem tickChan_eq (i : ChanId) (s : State) :
    tickChan i s = (if isRearmed (s.slot i) then program i s else s).modChan i fun _ => afterTick (s.slot i) := by
  rw [tickChan, parked_eq_isParked, periodic_eq_isPeriodic]
  cases parked : isParked (s.slot i)
  case false => simp [isRearmed_of_not_parked, afterTick_of_not_parked, parked, modChan_slot_self]
  case true =>
    cases periodic : isPeriodic (s.slot i)
    case false =>
      have programmed : (program i s).slot i = afterTick (s.slot i) := by
        simp [afterTick_of_not_periodic parked periodic]
      rw [isRearmed_of_not_periodic parked periodic, ← programmed]
      exact (modChan_slot_self i (program i s)).symm
    case true =>
      rw [isRearmed_of_periodic parked periodic, if_pos rfl, if_pos rfl]
      by_cases done : (s.slot i).xfer.countdown.toNat ≤ 1
      · rw [periodicTick_of_done done, afterTick_of_done parked periodic done, if_pos (decide_eq_true done)]
      · rw [periodicTick_of_waiting done, afterTick_of_waiting parked periodic done, if_neg (by simpa using done)]
        rfl

section
variable (i j : ChanId) (s : State)

theorem tickChan_slot : (tickChan i s).slot j = if j = i then afterTick (s.slot j) else s.slot j := by
  rw [tickChan_eq]
  cases isRearmed (s.slot i) <;> by_cases hj : j = i <;> simp [hj]

theorem tickChan_tx : (tickChan i s).tx j =
    s.tx j ++ (if j = i ∧ isRearmed (s.slot j) then pushedBy s (s.slot j) else []) := by
  rw [tickChan_eq]
  by_cases hj : j = i
  · subst hj
    cases isRearmed (s.slot j) <;> simp [ChannelFsm.program_tx]
  · cases isRearmed (s.slot i) <;> simp [ChannelFsm.program_tx, hj]

/-- Apart from the slots and the transmit traces, a tick only strobes ENABLE where it re-arms. -/
theorem tickChan_frame : tickChan i s = { s with
    chan := (tickChan i s).chan
    txq := (tickChan i s).txq
    hwq := s.hwq ++ (if isRearmed (s.slot i) then [.enable i] else []) } := by
  rw [tickChan_eq]
  cases isRearmed (s.slot i)
  case false => simp [State.modChan]
  case true => simp [program_eq, State.modChan]

theorem pushedBy_tickChan (c : Chan) : pushedBy (tickChan i s) c = pushedBy s c := by
  rw [tickChan_frame]
  rfl

end

/-! ### The scan of the channels (R240) -/

/-- The ticks of the channels in `l`, one after the other. -/
def tickAll (l : List ChanId) (s : State) : State := l.foldl (fun t i => tickChan i t) s

theorem tickAll_cons (i : ChanId) (l : List ChanId) (s : State) : tickAll (i :: l) s = tickAll l (tickChan i s) := rfl

section
variable {l : List ChanId} (distinct : l.Nodup)
include distinct

theorem tickAll_slot (s : State) (j : ChanId) :
    (tickAll l s).slot j = if j ∈ l then afterTick (s.slot j) else s.slot j := by
  induction l generalizing s with
  | nil => rfl
  | cons i rest ih =>
    obtain ⟨fresh, distinctRest⟩ := List.nodup_cons.mp distinct
    rw [tickAll_cons, ih distinctRest, tickChan_slot]
    by_cases hj : j = i
    · subst hj; simp [fresh]
    · simp [hj]

theorem tickAll_tx (s : State) (j : ChanId) :
    (tickAll l s).tx j = s.tx j ++ (if j ∈ l ∧ isRearmed (s.slot j) then pushedBy s (s.slot j) else []) := by
  induction l generalizing s with
  | nil => simp [tickAll]
  | cons i rest ih =>
    obtain ⟨fresh, distinctRest⟩ := List.nodup_cons.mp distinct
    rw [tickAll_cons, ih distinctRest, tickChan_tx, tickChan_slot, pushedBy_tickChan]
    by_cases hj : j = i
    · subst hj; simp [fresh]
    · simp [hj]

/-- Each channel is as it was at the start when the scan comes to it, so the strobes are those of the channels due at
the start. -/
theorem tickAll_frame (s : State) : tickAll l s = { s with
    chan := (tickAll l s).chan
    txq := (tickAll l s).txq
    hwq := s.hwq ++ (l.filter (fun i => isRearmed (s.slot i))).map Strobe.enable } := by
  induction l generalizing s with
  | nil => simp [tickAll]
  | cons i rest ih =>
    obtain ⟨fresh, distinctRest⟩ := List.nodup_cons.mp distinct
    have untouched (j : ChanId) (hj : j ∈ rest) : isRearmed ((tickChan i s).slot j) = isRearmed (s.slot j) := by
      have other : j ≠ i := fun e => fresh (e ▸ hj)
      rw [tickChan_slot_other s other]
    have one := tickChan_frame i s
    rw [tickAll_cons, ih distinctRest, List.filter_congr untouched, List.filter_cons]
    generalize tickChan i s = t at one ⊢
    generalize (tickAll rest t).chan = chan, (tickAll rest t).txq = txq
    rw [one]
    cases isRearmed (s.slot i) <;> simp

end

theorem chanIds_nodup : chanIds.Nodup := by decide

section
variable (s : State)

theorem sofTick_eq_tickAll : sofTick s = tickAll chanIds s := rfl

theorem sofTick_slot (i : ChanId) : (sofTick s).slot i = afterTick (s.slot i) :=
  (tickAll_slot chanIds_nodup s i).trans (if_pos (mem_chanIds i))

theorem sofTick_tx (i : ChanId) :
    (sofTick s).tx i = s.tx i ++ (if isRearmed (s.slot i) then pushedBy s (s.slot i) else []) := by
  rw [sofTick_eq_tickAll, tickAll_tx chanIds_nodup]
  simp [mem_chanIds]

theorem sofTick_frame : sofTick s = { s with
    chan := (sofTick s).chan
    txq := (sofTick s).txq
    hwq := s.hwq ++ (chanIds.filter (fun i => isRearmed (s.slot i))).map Strobe.enable } :=
  tickAll_frame chanIds_nodup s

theorem sofTick_mem : (sofTick s).mem = s.mem := by rw [sofTick_frame]

end

/-- Settles O54: the pass is the tick with the latch cleared, and the scan ticks each channel once, as if alone. -/
theorem sofPassRearmsParkedChannels : Obligations.SofPassRearmsParkedChannels := by
  unfold Obligations.SofPassRearmsParkedChannels
  intro s
  let acknowledged : State := { s with sofLatch := false }
  have bytes : SameBytes s (sofTick acknowledged) := fun a =>
    congrArg (Memory.read · a.toNat) (sofTick_mem acknowledged)
  exact ⟨sofTick acknowledged, rfl, sofTick_slot acknowledged, sofTick_tx acknowledged, bytes,
    sofTick_frame acknowledged⟩

end Sys2Proof.Proofs.Scheduler
end

section
/-! SUPPORT. What the operand checks of a command answer, and what the two port causes and the port pass leave of a state
(45_port_controller.md R251 to R257, R260 to R263, R265). -/

open Sys2Proof Sys2Proof.Machine Sys2Proof.Claims

namespace Sys2Proof.Proofs.PortControl

/-! ### Operand checks (R265) -/

section
variable {width : Nat} (rsv : BitVec width) (s t : State)

/-- The reserved-bit check in front of a command that always returns. -/
theorem reservedCheck_eq : (if rsv ≠ 0 then .next (s.ret stParam) else .next t : Result) =
    .next (if rsv = 0 then t else answered s 0xFFFFFFFB#32) := by
  by_cases legal : rsv = 0
  · rw [if_neg (not_not.mpr legal), if_pos legal]
  · rw [if_pos legal, if_neg legal]; rfl

/-- The same check followed by that of the port index. -/
theorem portCheck_eq (port : BitVec 8) :
    (if rsv ≠ 0 then .next (s.ret stParam) else if !portOk port then .next (s.ret stParam) else .next t : Result) =
      .next (if rsv = 0 ∧ port = 0 then t else answered s 0xFFFFFFFB#32) := by
  by_cases root : port = 0
  · have accepted : ¬(!portOk port) = true := by simp [Encoding.portOk_iff.mpr root]
    rw [if_neg accepted, reservedCheck_eq]
    simp only [root, and_true]
  · have rejected : (!portOk port) = true := by simpa [portOk] using root
    rw [if_pos rejected, ite_self, if_neg fun legal => root legal.2]
    rfl

end

/-- Settles O29: one check, and the shut-down state. -/
theorem shutDownDetachesAndMasks : Obligations.ShutDownDetachesAndMasks := by
  unfold Obligations.ShutDownDetachesAndMasks
  intro rsv s
  exact reservedCheck_eq rsv s _

/-- Settles O31: the three commands pass the same two checks before they write. -/
theorem portBitCommandsWriteTheirBits : Obligations.PortBitCommandsWriteTheirBits := by
  unfold Obligations.PortBitCommandsWriteTheirBits
  constructor
  · intro port on rsv s
    exact portCheck_eq rsv s _ port
  · intro port rsv s
    exact ⟨portCheck_eq rsv s _ port, portCheck_eq rsv s _ port⟩

/-! ### Power (R252) -/

theorem powerUp_slot (s : State) (i : ChanId) : (powerUp s).slot i = { s.slot i with hcint := 0#11 } :=
  State.mapChans_slot s _ i

/-- Settles O30: past the check, either value of `on` writes the port word, and only `powerUp` scans the slots. -/
theorem powerControlClearsPendingCausesWhenOn : Obligations.PowerControlClearsPendingCausesWhenOn := by
  unfold Obligations.PowerControlClearsPendingCausesWhenOn
  intro on rsv s
  refine ⟨fun reserved => if_pos reserved, fun legal =>
    ⟨(if on then powerUp s else setVbus false s).ret stOk, if_neg (not_not.mpr legal), ?_⟩⟩
  cases on with
  | true => exact ⟨powerUp_slot s, rfl, fun _ => rfl, rfl⟩
  | false => exact ⟨fun _ => rfl, rfl, fun _ => rfl, rfl⟩

/-! ### The two port causes (R261 to R263) -/

theorem speedDecode_getD (pspd : BitVec 2) (old : Speed) : (speedDecode pspd).getD old =
    if pspd = 0 then .high else if pspd = 1 then .full else if pspd = 2 then .low else old := by
  revert pspd; cases old <;> decide

theorem portConnectDetected_eq (s : State) : portConnectDetected s = { s with
    hprt := { s.hprt with pcdet := false }
    port := { s.port with connected := s.port.connected || !s.port.portReset }
    evq := s.evq ++ (if s.cbPort && !s.port.portReset then [.port .connect] else []) } := by
  cases guard : s.port.portReset with
  | true =>
    have kept : { s.port with portReset := true } = s.port := by rw [← guard]
    simp [portConnectDetected, guard, kept]
  | false => simp [portConnectDetected, guard, Dispatcher.emitPort_eq]

theorem portEnableChanged_eq (pena : Bool) (pspd : BitVec 2) (s : State) : portEnableChanged pena pspd s = { s with
    hprt := { s.hprt with penchng := false }
    port := if pena && !s.port.portReset then
        { s.port with speed := if pspd = 0 then .high else if pspd = 1 then .full else if pspd = 2 then .low
          else s.port.speed }
      else s.port
    evq := s.evq ++ (if s.cbPort && pena && !s.port.portReset then [.port .reset] else []) } := by
  rw [portEnableChanged, ← speedDecode_getD, Bool.and_assoc, Bool.and_comm pena]
  cases acted : !s.port.portReset && pena with
  | true => simp [Dispatcher.emitPort_eq]
  | false => simp

/-! ### The port pass (R260) -/

/-- Whether the pass acts on a connect: its bit is set and the guard is clear (R261). -/
def connectSeen (s : State) : Bool := s.hprt.pcdet && !s.port.portReset

/-- Whether the pass acts on an enable change: its bit and `PENA` are set and the guard is clear (R262). -/
def enableSeen (s : State) : Bool := s.hprt.penchng && s.hprt.pena && !s.port.portReset

section
variable (s : State)

/-- The first half of the pass. -/
theorem connectHalf_eq : (if s.hprt.pcdet then portConnectDetected s else s) = { s with
    hprt := { s.hprt with pcdet := false }
    port := { s.port with connected := s.port.connected || connectSeen s }
    evq := s.evq ++ (if s.cbPort && connectSeen s then [.port .connect] else []) } := by
  cases pending : s.hprt.pcdet with
  | true => simp [portConnectDetected_eq, connectSeen, pending]
  | false =>
    have kept : { s.hprt with pcdet := false } = s.hprt := by rw [← pending]
    simp [connectSeen, pending, kept]

theorem portService_eq : portService s = { s with
    hprt := { s.hprt with pcdet := false, penchng := false }
    port := { s.port with
      connected := s.port.connected || connectSeen s
      speed := if enableSeen s then (speedDecode s.hprt.pspd).getD s.port.speed else s.port.speed }
    evq := s.evq ++ (if s.cbPort && connectSeen s then [.port .connect] else []) ++
      (if s.cbPort && enableSeen s then [.port .reset] else []) } := by
  rw [portService, connectHalf_eq]
  cases pending : s.hprt.penchng with
  | true =>
    rw [if_pos rfl, portEnableChanged_eq, ← speedDecode_getD]
    cases acted : s.hprt.pena && !s.port.portReset <;> simp [enableSeen, pending, acted, Bool.and_assoc]
  | false =>
    have kept : { s.hprt with pcdet := false, penchng := false } = { s.hprt with pcdet := false } := by rw [← pending]
    have unseen : enableSeen s = false := by simp [enableSeen, pending]
    simp [kept, unseen]

/-- Under the guard the pass only acknowledges. -/
theorem portService_guarded (guard : s.port.portReset = true) :
    portService s = { s with hprt := { s.hprt with pcdet := false, penchng := false } } := by
  have noConnect : connectSeen s = false := by simp [connectSeen, guard]
  have noEnable : enableSeen s = false := by simp [enableSeen, guard]
  simp [portService_eq, noConnect, noEnable]

end

/-- Settles O56: each cause by its own equation, and the pass by the two in a row. -/
theorem portCausesAreGuarded : Obligations.PortCausesAreGuarded := by
  unfold Obligations.PortCausesAreGuarded
  intro s
  refine ⟨?connect, fun pena pspd => ?change, ?pass⟩
  case connect =>
    exact ⟨_, ChannelFsm.next_congr (portConnectDetected_eq s), fun _ => rfl, rfl⟩
  case change =>
    exact ⟨_, ChannelFsm.next_congr (portEnableChanged_eq pena pspd s), fun _ => rfl, rfl⟩
  case pass =>
    refine ⟨_, ChannelFsm.next_congr (portService_eq s), rfl, rfl, fun guard => ?held, fun _ => rfl, fun _ => rfl, rfl⟩
    rw [← portService_eq, portService_guarded s guard]
    exact ⟨rfl, rfl⟩

end Sys2Proof.Proofs.PortControl
end

section
/-! SUPPORT. Words as concatenations of fields, and from them the two inverse laws of the codec and the images of the
registers (30_encoding.md R100 to R116, R120, R126). -/

open Sys2Proof Sys2Proof.Machine Sys2Proof.Claims

namespace Sys2Proof.Proofs.Codec

/-! ### Fields of a concatenation, and a concatenation of fields -/

theorem getLsbD_append_of_lt {v w k : Nat} (hi : BitVec v) (lo : BitVec w) (h : k < w) :
    (hi ++ lo).getLsbD k = lo.getLsbD k := by
  rw [BitVec.getLsbD_append, if_pos h]

theorem getLsbD_append_of_le {v w k : Nat} (hi : BitVec v) (lo : BitVec w) (h : w ≤ k) :
    (hi ++ lo).getLsbD k = hi.getLsbD (k - w) := by
  rw [BitVec.getLsbD_append, if_neg (Nat.not_lt.mpr h)]

theorem extractLsb'_whole {w k : Nat} (x : BitVec w) (h : k = 0) : x.extractLsb' k w = x := by
  rw [h, BitVec.extractLsb'_eq_self]

theorem getLsbD_ofBool_of_eq {k : Nat} (b : Bool) (h : k = 0) : (BitVec.ofBool b).getLsbD k = b := by
  rw [h]
  cases b <;> rfl

theorem bit1_bit (w : Word) (k : Nat) : bit1 (bit w k) = w.extractLsb' k 1 := by
  apply BitVec.eq_of_getLsbD_eq
  intro j hj
  obtain rfl : j = 0 := by omega
  simp [bit1, bit]

/-! ### The opcode byte (R101) -/

theorem opOfCode_code (op : CmdOp) : opOfCode op.code = some op := by cases op <;> decide

theorem code_of_opOfCode {b : Byte} {op : CmdOp} (h : opOfCode b = some op) : op.code = b := by
  simpa using List.find?_some h

theorem opOfCode_field (x : BitVec 24) (op : CmdOp) : opOfCode (field (x ++ op.code) 0 8) = some op :=
  (congrArg opOfCode BitVec.extractLsb'_append_eq_right).trans (opOfCode_code op)

/-! ### Decoding an encoded command (R102, R103) -/

section
variable (x : BitVec 24) (op : CmdOp) (w1 w2 : Word)

theorem decode_oneWord (h : op.words = 1) : decode (.cmd [x ++ op.code]) = .ok (assemble op (x ++ op.code) 0 0) := by
  simp only [decode, decodeCmd, opOfCode_field, h]
  rfl

theorem decode_twoWords (h : op.words = 2) :
    decode (.cmd [x ++ op.code, w1]) = .ok (assemble op (x ++ op.code) w1 0) := by
  simp only [decode, decodeCmd, opOfCode_field, h]
  rfl

theorem decode_threeWords (h : op.words = 3) :
    decode (.cmd [x ++ op.code, w1, w2]) = .ok (assemble op (x ++ op.code) w1 w2) := by
  simp only [decode, decodeCmd, opOfCode_field, h]
  rfl

end

/-- A frame is decoded by the words of its opcode; then every operand is read back from its place in the word. -/
theorem decode_encode_command {i : Instr} (h : isCommand i = true) : decode (encode i) = .ok i := by
  cases i with
  | cmdInitialize | cmdUninitialize | cmdPowerControl | cmdPortVbus | cmdPortReset | cmdPortSuspend | cmdPortResume
  | cmdPortGetState | cmdGetFrameNumber | cmdEpDelete | cmdEpReset | cmdEpTransferResult | cmdEpTransferAbort =>
    refine (decode_oneWord _ _ rfl).trans (congrArg Except.ok ?_)
    simp (disch := decide) only [assemble, field, bit, bit1, BitVec.extractLsb'_append_eq_of_le,
      BitVec.extractLsb'_append_eq_of_add_le, getLsbD_append_of_lt, getLsbD_append_of_le, getLsbD_ofBool_of_eq,
      extractLsb'_whole, BitVec.extractLsb'_append_extractLsb'_eq_extractLsb']
  | cmdEpCreate | cmdEpModify =>
    refine (decode_twoWords _ _ _ rfl).trans (congrArg Except.ok ?_)
    simp (disch := decide) only [assemble, field, bit, bit1, BitVec.extractLsb'_append_eq_of_le,
      BitVec.extractLsb'_append_eq_of_add_le, getLsbD_append_of_lt, getLsbD_append_of_le, getLsbD_ofBool_of_eq,
      extractLsb'_whole, BitVec.extractLsb'_append_extractLsb'_eq_extractLsb']
  | cmdEpTransfer =>
    refine (decode_threeWords _ _ _ _ rfl).trans (congrArg Except.ok ?_)
    simp (disch := decide) only [assemble, field, BitVec.extractLsb'_append_eq_of_le,
      BitVec.extractLsb'_append_eq_of_add_le, extractLsb'_whole]
  | _ => cases h

/-! ### Decoding the other words (R110 to R114) -/

theorem chanOfBits_chanBits (c : ChanId) : chanOfBits (chanBits c) = c := by
  revert c; decide

theorem decodeRxsts_rxWord (ch : ChanId) (bcnt : BitVec 11) (dpid : BitVec 2) (pktsts : BitVec 4) (rsv : BitVec 11) :
    decodeRxsts (rxWord ch bcnt dpid pktsts rsv) =
      if pktsts == 2#4 then .rxstsInData ch bcnt dpid rsv
      else if pktsts == 3#4 then .rxstsInXferDone ch bcnt dpid rsv
      else if pktsts == 5#4 then .rxstsToggleErr ch bcnt dpid rsv
      else if pktsts == 7#4 then .rxstsChHalted ch bcnt dpid rsv
      else .rxstsOther ch bcnt dpid pktsts rsv := by
  simp (disch := decide) only [decodeRxsts, rxWord, field, BitVec.extractLsb'_append_eq_of_le,
    BitVec.extractLsb'_append_eq_of_add_le, extractLsb'_whole, chanOfBits_chanBits]

theorem decode_encode_rxstsOther (ch : ChanId) (bcnt : BitVec 11) (dpid : BitVec 2) {pktsts : BitVec 4}
    (rsv : BitVec 11) (h : otherCode pktsts = true) :
    decode (encode (.rxstsOther ch bcnt dpid pktsts rsv)) = .ok (.rxstsOther ch bcnt dpid pktsts rsv) := by
  simp only [otherCode, Bool.and_eq_true, bne_iff_ne] at h
  obtain ⟨⟨⟨inData, xferDone⟩, toggleErr⟩, chHalted⟩ := h
  simp [encode, decode, decodeRxsts_rxWord, inData, xferDone, toggleErr, chHalted]

theorem decode_encode_hprtPenchng (pena : Bool) (pspd : BitVec 2) :
    decode (encode (.hprtPenchng pena pspd)) = .ok (.hprtPenchng pena pspd) := by
  revert pspd; cases pena <;> decide

/-- Settles O2: a command by its frame, a receive class by its fields, any other word by its bits. -/
theorem decodeOfEncodeIsTheInstruction : Obligations.DecodeOfEncodeIsTheInstruction := by
  unfold Obligations.DecodeOfEncodeIsTheInstruction
  intro i legal
  by_cases command : isCommand i = true
  · exact decode_encode_command command
  · cases i with
    | gintHprtint | gintDiscint | gintRxflvl | gintHcint | gintSof => rfl
    | hcintXfrc | hcintStall | hcintNak | hcintAck | hcintTxerr | hcintBberr | hcintDterr | hcintChh | hcintNyet
    | hcintRsv2 | hcintRsv9 => rfl
    | rxstsInData | rxstsInXferDone | rxstsToggleErr | rxstsChHalted =>
      exact congrArg Except.ok (decodeRxsts_rxWord _ _ _ _ _)
    | rxstsOther => exact decode_encode_rxstsOther _ _ _ _ legal
    | hprtPcdet => rfl
    | hprtPenchng => exact decode_encode_hprtPenchng _ _
    | _ => exact absurd rfl command

/-! ### Encoding a decoded frame (R102, R126) -/

/-- A word is the concatenation of the fields it was taken apart into, reserved ones included. -/
theorem encode_assemble {op : CmdOp} {w0 : Word} (w1 w2 : Word) (h : op.code = field w0 0 8) :
    encode (assemble op w0 w1 w2) = .cmd ([w0, w1, w2].take op.words) := by
  cases op <;>
  · simp (disch := decide) only [assemble, encode, word0, h, bit1_bit, field, BitVec.extractLsb'_append_eq_of_le,
      BitVec.extractLsb'_append_eq_of_add_le, extractLsb'_whole, BitVec.extractLsb'_append_extractLsb'_eq_extractLsb']
    rfl

/-- Everything the frame decoder can answer: the opcode's number of words, taken apart by its assembly. -/
theorem decodeCmd_ok {ws rest : List Word} {i : Instr} (decoded : decodeCmd ws = .ok (i, rest)) :
    ∃ op w0 w1 w2, op.code = field w0 0 8 ∧ i = assemble op w0 w1 w2 ∧ ws = [w0, w1, w2].take op.words ++ rest := by
  unfold decodeCmd at decoded
  split at decoded
  · cases decoded
  · split at decoded
    · cases decoded
    next op known =>
      have opcode := code_of_opOfCode known
      split at decoded
      next words =>
        cases decoded
        exact ⟨op, _, 0, 0, opcode, rfl, by simp [words]⟩
      next words =>
        cases decoded
        exact ⟨op, _, _, 0, opcode, rfl, by simp [words]⟩
      next words =>
        cases decoded
        exact ⟨op, _, _, _, opcode, rfl, by simp [words]⟩
      next => cases decoded

theorem isCommand_assemble (op : CmdOp) (w0 w1 w2 : Word) : isCommand (assemble op w0 w1 w2) = true := by
  cases op <;> rfl

/-- Settles O3: the decoder took as many words as the opcode has, and encoding gives these words back. -/
theorem encodeOfDecodeIsTheFrame : Obligations.EncodeOfDecodeIsTheFrame := by
  unfold Obligations.EncodeOfDecodeIsTheFrame
  intro ws rest i decoded
  obtain ⟨op, w0, w1, w2, opcode, rfl, frame⟩ := decodeCmd_ok decoded
  exact ⟨_, encode_assemble w1 w2 opcode, frame⟩

/-! ### Words of the spec and images of the registers -/

/-- Settles O1: every word is a literal. -/
theorem specWordsDecode : Obligations.SpecWordsDecode := by
  unfold Obligations.SpecWordsDecode
  decide

/-- Settles O4: each image is the concatenation of its fields, so a field is read where the concatenation has it. -/
theorem registerImagesFollowTheirLayouts : Obligations.RegisterImagesFollowTheirLayouts := by
  unfold Obligations.RegisterImagesFollowTheirLayouts
  refine ⟨fun r => ?hcchar, fun r => ?hctsiz, fun r => ?hprt⟩ <;>
  · simp (disch := decide) only [Hcchar.toWord, Hctsiz.toWord, Hprt.toWord, field, bit,
      BitVec.extractLsb'_append_eq_of_le, BitVec.extractLsb'_append_eq_of_add_le, getLsbD_append_of_lt,
      getLsbD_append_of_le, getLsbD_ofBool_of_eq, extractLsb'_whole]
    simp

end Sys2Proof.Proofs.Codec
end

section
/-! SUPPORT. Everything a client command can do, one case per way it ends, and what follows for events, error words,
INITIALIZE and PORT_RESET (45_port_controller.md R250 to R257, 40_channel_table.md R144 to R147, 42_channel_fsm.md R181 to
R188, 60_exceptions.md R280 to R283, R301). -/

open Sys2Proof Sys2Proof.Machine Sys2Proof.Claims

namespace Sys2Proof.Proofs.Commands

/-! ### The ways a command ends -/

/-- How the command `i` can end in `s`: with a word alone, or accepted, in the state it then leaves. -/
inductive CommandMove (i : Instr) (s : State) : State → Prop where
  | answered (w : Word) : CommandMove i s (s.ret w)
  | attached (portCb epCb : Bool) : CommandMove i s ((attach portCb epCb (engineClear s.afterDraw)).ret stOk)
  | timedOut : CommandMove i s ((engineClear s.afterDraw).ret stTimeout)
  | shutDown : CommandMove i s
      ({ s with cbPort := false, cbEp := false, gintmsk := 0#32, irqEn := false }.ret stOk)
  | poweredUp : CommandMove i s ((powerUp s).ret stOk)
  | portWritten (t : State) (only : t = { s with hprt := t.hprt }) (signal : t.hprt.prst = s.hprt.prst) :
      CommandMove i s (t.ret stOk)
  | resetStarted : CommandMove i s (driveReset true s)
  | created (j : ChanId) (e : Endpoint) (sized : e.mps ≠ 0#11) :
      CommandMove i s ((bindChan j e s).ret ((handleOf j).setWidth 32))
  | modified (j : ChanId) (devAddr : BitVec 7) (speed : Speed) (mps : BitVec 11) (bound : (s.slot j).bound = true)
      (sized : mps ≠ 0#11) : CommandMove i s (((abort j s).modChan j (Chan.modified devAddr speed mps)).ret stOk)
  | deleted (j : ChanId) (bound : (s.slot j).bound = true) : CommandMove i s ((release j (abort j s)).ret stOk)
  | aborted (j : ChanId) (bound : (s.slot j).bound = true) : CommandMove i s ((abort j s).ret stOk)
  | enqueued (j : ChanId) (token : Token) (toggle : Toggle) (buf len : Word)
      (instr : ∃ h tok tog buf len rsv, i = .cmdEpTransfer h tok tog buf len rsv)
      (bound : (s.slot j).bound = true) (idle : (s.slot j).xfer.inProgress = false)
      (described : token ≠ .none ∧ toggle ≠ .none) :
      CommandMove i s ((enqueue j token toggle buf len s).ret stOk)

/-- The command has a next state, and ends there as `CommandMove` allows. -/
def Completes (i : Instr) (s : State) (r : Result) : Prop := ∃ t, r = .next t ∧ CommandMove i s t

section
variable {i : Instr} {s : State}

theorem CommandMove.completes {t : State} (h : CommandMove i s t) : Completes i s (.next t) := ⟨t, rfl, h⟩

theorem Completes.returned (w : Word) : Completes i s (.next (s.ret w)) := (CommandMove.answered w).completes

/-- A check of the operands, answered with a word when it fails. -/
theorem Completes.guarded {p : Prop} [Decidable p] {w : Word} {r : Result} (h : ¬p → Completes i s r) :
    Completes i s (if p then .next (s.ret w) else r) := by
  split
  next => exact .returned w
  next passed => exact h passed

theorem setWidth_mps_ne_zero {mps : BitVec 16} (h : mpsOk mps = true) : mps.setWidth 11 ≠ 0#11 := by
  obtain ⟨low, high⟩ := ChannelTable.mpsOk_iff.mp h
  intro zero
  have : (mps.setWidth 11).toNat = mps.toNat := by
    rw [BitVec.toNat_setWidth, Nat.mod_eq_of_lt (by omega)]
  simp [zero] at this
  omega

theorem tokenOfCode_ne_none {b : BitVec 4} {token : Token} : tokenOfCode b = some token → token ≠ .none := by
  revert b; cases token <;> decide

theorem toggleOfCode_ne_none {b : BitVec 4} {toggle : Toggle} : toggleOfCode b = some toggle → toggle ≠ .none := by
  revert b; cases toggle <;> decide

theorem completes_cmdInitialize (portCb epCb : Bool) (rsv : BitVec 22) :
    Completes i s (execCmdInitialize portCb epCb rsv s) := by
  refine .guarded fun _ => ?_
  split
  · exact (CommandMove.attached portCb epCb).completes
  · exact CommandMove.timedOut.completes

theorem completes_cmdPowerControl (on : Bool) (rsv : BitVec 23) : Completes i s (execCmdPowerControl on rsv s) := by
  refine .guarded fun _ => ?_
  cases on
  · exact CommandMove.completes (.portWritten _ rfl rfl)
  · exact CommandMove.poweredUp.completes

theorem completes_cmdEpCreate (devAddr : BitVec 7) (devSpeed : BitVec 2) (epNum : BitVec 4) (epDir : Bool)
    (epType : BitVec 2) (mps : BitVec 16) (interval : BitVec 8) (rsv : BitVec 16) :
    Completes i s (execCmdEpCreate devAddr devSpeed epNum epDir epType mps interval rsv s) := by
  refine .guarded fun _ => ?_
  split
  · exact .returned _
  · refine .guarded fun size => ?_
    split
    · exact .returned _
    · exact (CommandMove.created _ _ (setWidth_mps_ne_zero (by simpa using size))).completes

theorem completes_cmdEpModify (handle : BitVec 8) (devAddr : BitVec 7) (devSpeed : BitVec 2) (mps : BitVec 16)
    (rsv : BitVec 23) : Completes i s (execCmdEpModify handle devAddr devSpeed mps rsv s) := by
  refine .guarded fun _ => ?_
  split
  · exact .returned _
  next named =>
    split
    · exact .returned _
    · exact .guarded fun size =>
        (CommandMove.modified _ _ _ _ (boundChan_some named).2 (setWidth_mps_ne_zero (by simpa using size))).completes

theorem completes_cmdEpDelete (handle : BitVec 8) (rsv : BitVec 16) : Completes i s (execCmdEpDelete handle rsv s) := by
  refine .guarded fun _ => ?_
  split
  · exact .returned _
  next named => exact (CommandMove.deleted _ (boundChan_some named).2).completes

/-- EP_RESET and EP_TRANSFER_ABORT are one meaning (R147, R187). -/
theorem completes_cmdEpReset (handle : BitVec 8) (rsv : BitVec 16) : Completes i s (execCmdEpReset handle rsv s) := by
  refine .guarded fun _ => ?_
  split
  · exact .returned _
  next named => exact (CommandMove.aborted _ (boundChan_some named).2).completes

theorem completes_cmdEpTransfer (handle : BitVec 8) (token toggle : BitVec 4) (buf len : Word) (rsv : BitVec 8) :
    Completes (.cmdEpTransfer handle token toggle buf len rsv) s
      (execCmdEpTransfer handle token toggle buf len rsv s) := by
  refine .guarded fun _ => ?_
  split
  · exact .returned _
  next named =>
    split
    next token toggle htok htog =>
      refine .guarded fun _ => .guarded fun _ => .guarded fun free => ?_
      simp only [Bool.or_eq_true, not_or, Bool.not_eq_true] at free
      exact (CommandMove.enqueued _ _ _ _ _ ⟨_, _, _, _, _, _, rfl⟩ (boundChan_some named).2 free.2
        ⟨tokenOfCode_ne_none htok, toggleOfCode_ne_none htog⟩).completes
    next => exact .returned _

theorem completes_cmdEpTransferResult (handle : BitVec 8) (rsv : BitVec 16) :
    Completes i s (execCmdEpTransferResult handle rsv s) := by
  refine .guarded fun _ => ?_
  split
  · exact .returned _
  · exact .returned _

end

/-- Everything a client command can do (R301). -/
theorem command_completes {i : Instr} (s : State) (h : isCommand i = true) : Completes i s (exec i s) := by
  cases i with
  | cmdInitialize portCb epCb rsv => exact completes_cmdInitialize portCb epCb rsv
  | cmdUninitialize rsv => exact .guarded fun _ => CommandMove.shutDown.completes
  | cmdPowerControl on rsv => exact completes_cmdPowerControl on rsv
  | cmdPortVbus port on rsv => exact .guarded fun _ => .guarded fun _ => CommandMove.completes (.portWritten _ rfl rfl)
  | cmdPortReset port rsv => exact .guarded fun _ => .guarded fun _ => CommandMove.resetStarted.completes
  | cmdPortSuspend port rsv => exact .guarded fun _ => .guarded fun _ => CommandMove.completes (.portWritten _ rfl rfl)
  | cmdPortResume port rsv => exact .guarded fun _ => .guarded fun _ => CommandMove.completes (.portWritten _ rfl rfl)
  | cmdPortGetState port rsv => exact .guarded fun _ => .guarded fun _ => .returned _
  | cmdGetFrameNumber rsv => exact .guarded fun _ => .returned _
  | cmdEpCreate => exact completes_cmdEpCreate _ _ _ _ _ _ _ _
  | cmdEpModify => exact completes_cmdEpModify _ _ _ _ _
  | cmdEpDelete => exact completes_cmdEpDelete _ _
  | cmdEpReset => exact completes_cmdEpReset _ _
  | cmdEpTransfer => exact completes_cmdEpTransfer _ _ _ _ _ _
  | cmdEpTransferResult => exact completes_cmdEpTransferResult _ _
  | cmdEpTransferAbort => exact completes_cmdEpReset _ _
  | _ => cases h

theorem commandMove_of_exec {i : Instr} {s t : State} (command : isCommand i = true) (h : exec i s = .next t) :
    CommandMove i s t := by
  obtain ⟨u, hu, move⟩ := command_completes s command
  cases h.symm.trans hu
  exact move

/-! ### No event, and an error word alone (R280 to R283, R301) -/

/-- PARAM, INVALID or BUSY (R107). -/
def IsError (w : Word) : Prop := w = 0xFFFFFFFB#32 ∨ w = 0xFFFFFFFF#32 ∨ w = 0xFFFFFFFE#32

theorem not_isError_stOk : ¬IsError stOk := by unfold IsError; decide

theorem not_isError_stTimeout : ¬IsError stTimeout := by unfold IsError; decide

theorem not_isError_handle (j : ChanId) : ¬IsError ((handleOf j).setWidth 32) := by
  unfold IsError
  revert j; decide

/-- From `s` to `t` no event was emitted, and at most one word returned; an error word is all that changed. -/
def Answers (s t : State) : Prop :=
  t.evq = s.evq ∧ (t.resq = s.resq ∨ ∃ v, t.resq = s.resq ++ [v] ∧ (IsError v → t = answered s v))

theorem Answers.accepted {s u : State} {v : Word} (quiet : u.evq = s.evq ∧ u.resq = s.resq) (fine : ¬IsError v) :
    Answers s (u.ret v) :=
  ⟨quiet.1, .inr ⟨v, congrArg (· ++ [v]) quiet.2, fun error => absurd error fine⟩⟩

theorem quiet_engineClear_afterDraw (s : State) :
    (engineClear s.afterDraw).evq = s.evq ∧ (engineClear s.afterDraw).resq = s.resq := by
  simp [engineClear]

theorem quiet_abort (j : ChanId) (s : State) : (abort j s).evq = s.evq ∧ (abort j s).resq = s.resq := by
  rw [ChannelTable.abort_eq]
  exact ⟨rfl, rfl⟩

theorem quiet_enqueue (j : ChanId) (token : Token) (toggle : Toggle) (buf len : Word) (s : State) :
    (enqueue j token toggle buf len s).evq = s.evq ∧ (enqueue j token toggle buf len s).resq = s.resq := by
  rw [ChannelFsm.enqueue_frame]
  exact ⟨rfl, rfl⟩

theorem CommandMove.answers {i : Instr} {s t : State} (h : CommandMove i s t) : Answers s t := by
  cases h with
  | answered w => exact ⟨rfl, .inr ⟨w, rfl, fun _ => rfl⟩⟩
  | attached => exact .accepted (quiet_engineClear_afterDraw s) not_isError_stOk
  | timedOut => exact .accepted (quiet_engineClear_afterDraw s) not_isError_stTimeout
  | shutDown => exact .accepted ⟨rfl, rfl⟩ not_isError_stOk
  | poweredUp => exact .accepted ⟨rfl, rfl⟩ not_isError_stOk
  | portWritten u only =>
    rw [only]
    exact .accepted ⟨rfl, rfl⟩ not_isError_stOk
  | resetStarted => exact ⟨rfl, .inl rfl⟩
  | created j => exact .accepted ⟨rfl, rfl⟩ (not_isError_handle j)
  | modified j => exact .accepted (quiet_abort j s) not_isError_stOk
  | deleted j => exact .accepted (quiet_abort j s) not_isError_stOk
  | aborted j => exact .accepted (quiet_abort j s) not_isError_stOk
  | enqueued j => exact .accepted (quiet_enqueue j _ _ _ _ s) not_isError_stOk

/-- Settles O21: no way a command can end appends to the event trace. -/
theorem commandsEmitNoEvent : Obligations.CommandsEmitNoEvent := by
  unfold Obligations.CommandsEmitNoEvent
  intro i s command
  obtain ⟨t, ht, move⟩ := command_completes s command
  exact ⟨t, ht, move.answers.1⟩

/-- Settles O22: a word returned with an effect is OK, TIMEOUT or a handle. -/
theorem errorReturnsChangeNothing : Obligations.ErrorReturnsChangeNothing := by
  unfold Obligations.ErrorReturnsChangeNothing
  intro i s t w command ht returned error
  obtain ⟨-, silent | ⟨v, answer, alone⟩⟩ := (commandMove_of_exec command ht).answers
  · simp [silent] at returned
  · obtain rfl : v = w := by simpa [answer] using returned
    exact alone error

/-! ### INITIALIZE and the first half of PORT_RESET (R250, R254) -/

theorem engineClear_slot (s : State) (i : ChanId) : (engineClear s).slot i = Chan.zero := by
  simp [engineClear, State.slot]

/-- A draw changes only what the environment still owes (R250, R255). -/
theorem afterDraw_eq (s : State) : ∃ draws count, s.afterDraw = { s with draws := draws, drawCount := count } := by
  unfold State.afterDraw
  split
  next _ rest _ => exact ⟨rest, s.drawCount, rfl⟩
  next => exact ⟨s.draws, s.drawCount + 1, rfl⟩

/-- Settles O28: past the check, the draw selects the attached or the detached engine. -/
theorem startUpClearsAndAttaches : Obligations.StartUpClearsAndAttaches := by
  unfold Obligations.StartUpClearsAndAttaches
  intro portCb epCb rsv s
  refine ⟨fun reserved => if_pos reserved, fun legal => ⟨_, if_neg (not_not.mpr legal), ?_⟩⟩
  obtain ⟨draws, count, taken⟩ := afterDraw_eq s
  rw [taken]
  have cleared := engineClear_slot { s with draws := draws, drawCount := count }
  cases s.drawnBit with
  | true => exact ⟨cleared, rfl, rfl, rfl, rfl, fun _ => ⟨rfl, rfl, rfl, rfl, rfl⟩, nofun, fun _ => rfl, rfl⟩
  | false => exact ⟨cleared, rfl, rfl, rfl, rfl, nofun, fun _ => ⟨rfl, rfl, rfl, rfl, rfl⟩, fun _ => rfl, rfl⟩

/-- Settles O32: two checks, then the signal is driven. -/
theorem portResetSetsGuardAndSignal : Obligations.PortResetSetsGuardAndSignal := by
  unfold Obligations.PortResetSetsGuardAndSignal
  intro port rsv s
  exact PortControl.portCheck_eq rsv s _ port

end Sys2Proof.Proofs.Commands
end

section
/-! SUPPORT. What a step runs and how it can end: the client's frames, the moves of the link, the refused inputs
(10_state.md R27, R57, 20_memory.md R72, 30_encoding.md R102, R120, 45_port_controller.md R254, R255,
70_reset_and_hazards.md R320). -/

open Sys2Proof Sys2Proof.Machine Sys2Proof.Claims

namespace Sys2Proof.Proofs.Sequencer

/-! ### An invocation (R220) -/

section
variable {s t : State}

theorem takeInterrupt_next (h : takeInterrupt s = .next t) : irqLine s = true ∧ dispatcher s = .next t := by
  unfold takeInterrupt at h
  split at h
  next asserted => exact ⟨asserted, h⟩
  next => cases h

theorem irqEn_of_irqLine (h : irqLine s = true) : s.irqEn = true :=
  (Bool.and_eq_true_iff.mp h).1

/-! ### A client command (R102, R120, R254) -/

theorem requeue_eq (ws : List Word) (s : State) :
    requeue ws s = { s with inbox := if ws.isEmpty then s.inbox else .command ws :: s.inbox } := by
  cases ws <;> rfl

theorem clientCommand_decoded {ws rest : List Word} {i : Instr} (free : s.port.portReset = false)
    (decoded : decodeCmd ws = .ok (i, rest)) : clientCommand ws s = exec i (requeue rest s) := by
  simp [clientCommand, free, decoded]

theorem clientCommand_unknown {w : Word} (ws : List Word) (free : s.port.portReset = false)
    (unknown : opOfCode (field w 0 8) = none) : clientCommand (w :: ws) s = .next ((requeue ws s).ret stParam) := by
  simp [clientCommand, free, decodeCmd, unknown]

theorem clientCommand_guarded (ws : List Word) (guard : s.port.portReset = true) :
    clientCommand ws s = .refused .clientInsidePortReset := if_pos guard

/-- A client command runs one of the sixteen, or returns PARAM; the inbox keeps the words it did not take. -/
theorem clientCommand_next {ws : List Word} (h : clientCommand ws s = .next t) :
    ∃ q, (∃ i, isCommand i = true ∧ exec i { s with inbox := q } = .next t) ∨
      t = ({ s with inbox := q } : State).ret stParam := by
  unfold clientCommand at h
  split at h
  · cases h
  · split at h
    next i rest decoded =>
      obtain ⟨op, w0, w1, w2, -, rfl, -⟩ := Codec.decodeCmd_ok decoded
      rw [requeue_eq] at h
      exact ⟨_, .inl ⟨_, Codec.isCommand_assemble op w0 w1 w2, h⟩⟩
    next =>
      cases h
      exact ⟨_, .inr (by rw [requeue_eq])⟩
    next => cases h

/-! ### What an input can do -/

/-- What serving an input leaves, where it is not refused. -/
inductive InputMove (s : State) : Input → State → Prop where
  | executed {ws : List Word} {q : List Input} {i : Instr} {t : State} (command : isCommand i = true)
      (ran : exec i { s with inbox := q } = .next t) : InputMove s (.command ws) t
  | rejected {ws : List Word} {q : List Input} :
      InputMove s (.command ws) (({ s with inbox := q } : State).ret stParam)
  | invoked {t : State} (asserted : irqLine s = true) (ran : dispatcher s = .next t) : InputMove s .irq t
  | resetEnded : InputMove s .resetEnd (resetEnd s)
  | caused {ch : ChanId} {bits : CauseWord} : InputMove s (.linkCause ch bits) (linkCause ch bits s)
  | halted {ch : ChanId} : InputMove s (.linkHalted ch) (s.modChan ch Chan.haltConfirmed)
  | counted {ch : ChanId} {xfrsiz : BitVec 19} {pktcnt : BitVec 10} : InputMove s (.linkCount ch xfrsiz pktcnt)
      (s.modChan ch (fun c => { c with hctsiz := { c.hctsiz with xfrsiz := xfrsiz, pktcnt := pktcnt } }))
  | received {status : Word} {words : List Word} : InputMove s (.linkRx status words) (linkRx status words s)
  | framed {f : BitVec 16} : InputMove s (.linkSof f) (linkSof f s)
  | portSeen {pcsts pcdet pena penchng : Bool} {pspd : BitVec 2} :
      InputMove s (.linkPort pcsts pcdet pena penchng pspd) (linkPort pcsts pcdet pena penchng pspd s)
  | disconnected : InputMove s .linkDisconnect (linkDisconnect s)
  | stored {addr : Word} {value : Byte} : InputMove s (.clientStore addr value) (memWrite s addr value)
  | reset : InputMove s .powerOnReset (powerOnReset s)

/-- An input with one check that is not refused. -/
theorem eq_of_checked {p : Prop} [Decidable p] {u : State} {r : Refusal}
    (h : (if p then .next u else .refused r : Result) = .next t) : t = u := by
  split at h
  · cases h; rfl
  · cases h

theorem serveInput_next {x : Input} (served : serveInput x s = .next t) : InputMove s x t := by
  cases x with
  | command ws =>
    obtain ⟨q, ⟨i, command, ran⟩ | rfl⟩ := clientCommand_next served
    · exact .executed command ran
    · exact .rejected
  | irq =>
    obtain ⟨asserted, ran⟩ := takeInterrupt_next served
    exact .invoked asserted ran
  | resetEnd => exact eq_of_checked served ▸ .resetEnded
  | linkHalted => exact eq_of_checked served ▸ .halted
  | linkCount => exact eq_of_checked served ▸ .counted
  | linkCause => cases served; exact .caused
  | linkRx => cases served; exact .received
  | linkSof => cases served; exact .framed
  | linkPort => cases served; exact .portSeen
  | linkDisconnect => cases served; exact .disconnected
  | clientStore => cases served; exact .stored
  | powerOnReset => cases served; exact .reset

/-- How a step can end: idle, in an invocation, or in the move of the oldest input. -/
theorem step_next (h : step s = .next t) :
    t = s ∨ (irqLine s = true ∧ dispatcher s = .next t) ∨
      ∃ x q, s.inbox = x :: q ∧ InputMove { s with inbox := q } x t := by
  unfold step nextStep at h
  split at h
  next =>
    split at h
    next asserted => exact .inr (.inl ⟨asserted, h⟩)
    next => cases h; exact .inl rfl
  next x q head => exact .inr (.inr ⟨x, q, head, serveInput_next h⟩)

end

/-- Settles O5: the guard is clear and the stream decodes, so the step runs the instruction on the requeued rest. -/
theorem stepRunsTheDecodedCommand : Obligations.StepRunsTheDecodedCommand := by
  unfold Obligations.StepRunsTheDecodedCommand
  intro s ws rest q i head free decoded
  calc step s = clientCommand ws { s with inbox := q } := Link.step_of_inbox_cons head
    _ = exec i (requeue rest { s with inbox := q }) := clientCommand_decoded free decoded
    _ = _ := congrArg (exec i) (requeue_eq rest { s with inbox := q })

/-- Settles O6: one word is taken, and PARAM returned. -/
theorem unknownOpcodeReturnsParam : Obligations.UnknownOpcodeReturnsParam := by
  unfold Obligations.UnknownOpcodeReturnsParam
  intro s w ws q head free unknown
  calc step s = clientCommand (w :: ws) { s with inbox := q } := Link.step_of_inbox_cons head
    _ = .next ((requeue ws { s with inbox := q }).ret stParam) := clientCommand_unknown ws free unknown
    _ = _ := by rw [requeue_eq]; rfl

/-- Settles O12: each input meets the check that refuses it. -/
theorem disabledInputsAreRefused : Obligations.DisabledInputsAreRefused := by
  unfold Obligations.DisabledInputsAreRefused
  refine ⟨fun s q head low => ?irq, fun s ws q head guard => ?command, fun s q head free => ?resetEnd,
    fun s ch q head noRequest => ?linkHalted⟩
  all_goals refine (Link.step_of_inbox_cons head).trans ?_
  case irq => exact if_neg (Bool.eq_false_iff.mp low)
  case command => exact clientCommand_guarded ws guard
  case resetEnd => exact if_neg (Bool.eq_false_iff.mp free)
  case linkHalted => exact if_neg (Bool.eq_false_iff.mp noRequest)

/-- Settles O57: the count-down of both fields is the check; past it one slot is rewritten. -/
theorem linkCountsSizeWordsDown : Obligations.LinkCountsSizeWordsDown := by
  unfold Obligations.LinkCountsSizeWordsDown
  intro s ch xfrsiz pktcnt q head
  have served := Link.step_of_inbox_cons head
  constructor
  · intro sizeDown countDown
    exact ⟨_, served.trans (if_pos ⟨sizeDown, countDown⟩), Link.onlySlot_modChan { s with inbox := q } ch _, rfl⟩
  · intro up
    exact served.trans (if_neg fun down => up.elim (Nat.not_lt.mpr down.1) (Nat.not_lt.mpr down.2))

/-- Settles O15: the input is one `MemWrite`. -/
theorem clientStoreWritesOneByte : Obligations.ClientStoreWritesOneByte := by
  unfold Obligations.ClientStoreWritesOneByte
  intro s a v q head canonical
  let served : State := { s with inbox := q }
  refine ⟨memWrite served a v, Link.step_of_inbox_cons head, fun b => ?_, memWrite_wf (s := served) a v canonical, rfl⟩
  split
  case isTrue same =>
    rw [same]
    exact memRead_memWrite_self (s := served) a v canonical
  case isFalse other => exact memRead_memWrite_other served v other

/-- Settles O33: the guard lets `ResetEnd` run; the draw selects the word alone. -/
theorem resetEndClearsGuardAndSignal : Obligations.ResetEndClearsGuardAndSignal := by
  unfold Obligations.ResetEndClearsGuardAndSignal
  intro s q head guard
  refine ⟨resetEnd { s with inbox := q }, (Link.step_of_inbox_cons head).trans (if_pos guard), ?_⟩
  obtain ⟨draws, count, taken⟩ := Commands.afterDraw_eq { s with inbox := q }
  rw [resetEnd, taken]
  exact ⟨rfl, rfl, rfl, rfl⟩

/-- Settles O58: the two banks by their entries, every other element by its value in `State.reset`. -/
theorem powerOnResetRestoresTheTable : Obligations.PowerOnResetRestoresTheTable := by
  unfold Obligations.PowerOnResetRestoresTheTable
  intro s q head
  exact ⟨powerOnReset { s with inbox := q }, Link.step_of_inbox_cons head, Link.reset_slot, Link.reset_tx,
    fun _ => rfl, rfl⟩

end Sys2Proof.Proofs.Sequencer
end

section
/-! SUPPORT. What the receive drain and an invocation can end in, said once, so that an invocation keeps a property if its five
passes keep it (41_fifo_transport.md R163 to R168, 43_interrupt_dispatcher.md R221 to R227). -/

open Sys2Proof Sys2Proof.Machine Sys2Proof.Claims

namespace Sys2Proof.Proofs.Invocation

/-! ### The receive pass (R163, R166, R225) -/

/-- What draining a data packet for channel `i` leaves: the words popped, and an admitted packet stored and counted. -/
inductive Drained (i : ChanId) (bcnt : BitVec 11) (s : State) : State → Prop where
  | dropped : Drained i bcnt s (Fifo.popped bcnt s)
  | stored (ws : List Word) : Drained i bcnt s
      ((storePacket i bcnt ws (Fifo.popped bcnt s)).modChan i (fun c => c.modXfer (fun x => x.received bcnt)))

theorem drainData_next {i : ChanId} {bcnt : BitVec 11} {s t : State} (h : drainData i bcnt s = .next t) :
    Drained i bcnt s t := by
  by_cases enough : (bcnt.toNat + 3) / 4 ≤ s.rxdatQ.length
  · cases admitted : (s.slot i).admits with
    | true =>
      cases h.symm.trans (Fifo.drainData_stored enough admitted)
      exact .stored _
    | false =>
      cases h.symm.trans (Fifo.drainData_dropped enough admitted)
      exact .dropped
  · cases h.symm.trans (Fifo.drainData_underflow (not_le.mp enough))

/-- The receive pass with its source masked and the status word popped. -/
def entryPopped (rest : List Word) (s : State) : State := { maskRx s with rxstsQ := rest }

theorem rxPass_next {s t : State} (h : rxPass s = .next t) :
    ∃ rest u, (u = entryPopped rest s ∨ ∃ i bcnt, Drained i bcnt (entryPopped rest s) u) ∧ t = unmaskRx u := by
  unfold rxPass at h
  split at h
  next u drained =>
    cases h
    unfold drainRx at drained
    split at drained
    · cases drained
    next status v popped =>
      obtain ⟨rest, -, rfl⟩ := State.popStatus_some popped
      refine ⟨rest, u, ?_, rfl⟩
      unfold drainEntry at drained
      split at drained
      · exact .inr ⟨_, _, drainData_next drained⟩
      · cases drained
        exact .inl rfl
  all_goals cases h

/-! ### An invocation (R222) -/

/-- The state the first two passes leave. -/
def afterTwoPasses (s : State) : State :=
  passIf (bit (snapshot s) 29) disconnectPass (passIf (bit (snapshot s) 24) portService s)

/-- Everything an invocation can end in: only the receive pass, in the middle, may have no next state. -/
theorem dispatcher_next {s t : State} (h : dispatcher s = .next t) :
    ∃ u, (u = afterTwoPasses s ∨ rxPass (afterTwoPasses s) = .next u) ∧
      t = passIf (bit (snapshot s) 3) sofPass (passIf (bit (snapshot s) 25) channelPass u) := by
  unfold dispatcher at h
  dsimp only at h
  split at h
  next u received =>
    cases h
    refine ⟨u, ?_, rfl⟩
    split at received
    · exact .inr received
    · cases received
      exact .inl rfl
  all_goals cases h

theorem passIf_keeps {P : State → Prop} {f : State → State} (keeps : ∀ s, P s → P (f s)) (b : Bool) {s : State}
    (h : P s) : P (passIf b f s) := by
  cases b
  · exact h
  · exact keeps s h

/-- A property that every pass keeps is kept by an invocation. -/
theorem dispatcher_keeps {P : State → Prop} (port : ∀ s, P s → P (portService s))
    (disc : ∀ s, P s → P (disconnectPass s)) (rx : ∀ s t, P s → rxPass s = .next t → P t)
    (chan : ∀ s, P s → P (channelPass s)) (sof : ∀ s, P s → P (sofPass s)) {s t : State} (h : P s)
    (ran : dispatcher s = .next t) : P t := by
  have two : P (afterTwoPasses s) := passIf_keeps disc _ (passIf_keeps port _ h)
  obtain ⟨u, received, rfl⟩ := dispatcher_next ran
  have three : P u := received.elim (fun skipped => skipped ▸ two) (rx _ u two)
  exact passIf_keeps sof _ (passIf_keeps chan _ three)

end Sys2Proof.Proofs.Invocation
end

section
/-! SUPPORT. The rewrites of a slot keep it good, and every step keeps the invariant (10_state.md R35, 42_channel_fsm.md
R180 to R203, 60_exceptions.md R310). -/

open Sys2Proof Sys2Proof.Machine Sys2Proof.Claims

namespace Sys2Proof.Proofs.Invariant

/-! ### What a good slot says of its flags -/

/-- The table of R35 without its names: an event of a bound channel stands only with an active transfer on hardware. -/
theorem inTable_iff {c : Chan} : seqState c ≠ .outside ↔
    (c.bound = true → c.xfer.event ≠ none → c.xfer.active = true ∧ c.xfer.inProgress = true) := by
  unfold seqState
  cases c.bound with
  | false => simp
  | true =>
    cases c.xfer.event with
    | none => cases c.xfer.active <;> cases c.xfer.inProgress <;> cases c.hcchar.chdis <;> simp
    | some e => cases c.xfer.active <;> cases c.xfer.inProgress <;> cases e <;> simp

section
variable {c : Chan} (h : c.Good)
include h

theorem bound_of_busy (busy : c.xfer.inProgress = true) : c.bound = true := by
  by_contra free
  simp [(h.freeQuiet (by simpa using free)).2.1] at busy

theorem event_none (quiet : c.xfer.active = false ∨ c.xfer.inProgress = false) : c.xfer.event = none := by
  by_contra marked
  cases bound : c.bound with
  | false => exact marked (h.freeQuiet bound).2.2.1
  | true =>
    obtain ⟨active, busy⟩ := inTable_iff.mp h.inTable bound marked
    simp [active, busy] at quiet

end


/-! ### Rewrites that leave a slot good -/

section
variable {c : Chan}

/-- A halt requested with a transfer on hardware; the Transfer record may have been determined and completed before
(R185, R191 to R198). -/
theorem good_halted {x : Transfer} (bound : c.bound = true) (good : c.Good) (busy : x.inProgress = true)
    (inTable : x.event ≠ none → x.active = true) (countOk : x.transferred.toNat ≤ x.length.toNat)
    (described : x.active = true → x.token ≠ .none ∧ x.toggle ≠ .none)
    (paced : x.countdown.toNat ≤ c.ep.reload.toNat) : ({ halted c with xfer := x } : Chan).Good where
  inTable := inTable_iff.mpr fun _ event => ⟨inTable event, busy⟩
  freeQuiet := fun free => by simp [halted, bound] at free
  countOk := countOk
  sized := good.sized
  described := described
  paced := paced
  settled := .inr (.inr rfl)
  parkedQuiet := fun _ idle => by simp [busy] at idle

/-- The mask cleared with nothing on hardware (R189). -/
theorem good_masked (good : c.Good) (idle : c.xfer.inProgress = false) (raw : CauseWord) :
    ({ c with hcint := raw, hcintmsk := 0#11 } : Chan).Good :=
  have event := event_none good (.inr idle)
  { good with
    freeQuiet := fun free => ⟨(good.freeQuiet free).1, idle, event, rfl⟩
    settled := .inl event
    parkedQuiet := fun _ _ => rfl }

/-- The halt confirmed with no event to deliver: an idle slot, or a parked one (R199, R201). -/
theorem good_released (good : c.Good) (quiet : c.xfer.active = false ∨ c.xfer.event = none) (raw : CauseWord) :
    ({ c with hcint := raw, hcintmsk := 0#11, xfer := { c.xfer with inProgress := false } } : Chan).Good := by
  have event : c.xfer.event = none := quiet.elim (fun inactive => event_none good (.inl inactive)) id
  exact { good with
    inTable := inTable_iff.mpr fun _ marked => absurd event marked
    freeQuiet := fun free => ⟨(good.freeQuiet free).1, rfl, event, rfl⟩
    settled := .inl event
    parkedQuiet := fun _ _ => rfl }

/-- The transfer ended with its record dropped: delivered, aborted or disconnected (R186, R199, R224). -/
theorem good_dropped (bound : c.bound = true) (good : c.Good) (busy : Bool) (control : Hcchar) (raw mask : CauseWord) :
    ({ c with hcchar := control, hcint := raw, hcintmsk := mask,
              xfer := { c.xfer with inProgress := busy, active := false, event := none } } : Chan).Good :=
  { good with
    inTable := inTable_iff.mpr fun _ marked => absurd rfl marked
    freeQuiet := fun free => by simp [bound] at free
    described := nofun
    settled := .inl rfl
    parkedQuiet := nofun }

/-- `Program` on a bound channel with an active, undetermined transfer (R181, R182). -/
theorem good_programmed (bound : c.bound = true) (event : c.xfer.event = none) (countOk : c.countOk) (sized : c.sized)
    (described : c.described) (paced : c.paced) : c.programmed.Good where
  inTable := inTable_iff.mpr fun _ marked => absurd event marked
  freeQuiet := fun free => by simp [Chan.programmed, bound] at free
  countOk := countOk
  sized := sized
  described := described
  paced := paced
  settled := .inl event
  parkedQuiet := nofun

theorem good_setCountdown {n : BitVec 16} (good : c.Good) (paced : n.toNat ≤ c.ep.reload.toNat) :
    (c.setCountdown n).Good :=
  { good with paced := paced }

theorem good_received (bcnt : BitVec 11) (good : c.Good) : (c.modXfer (fun x => x.received bcnt)).Good := by
  refine { good with countOk := ?_ }
  have counted := good.countOk
  unfold Chan.countOk at counted ⊢
  simp only [Chan.modXfer, Transfer.received, storedBytes, remaining, BitVec.toNat_ofNat]
  exact (Nat.mod_le _ _).trans (by omega)

theorem good_modified (devAddr : BitVec 7) (speed : Speed) {mps : BitVec 11} (sized : mps ≠ 0#11) (good : c.Good) :
    (c.modified devAddr speed mps).Good :=
  { good with sized := fun _ => sized }

theorem good_freed (c : Chan) : c.freed.Good where
  inTable := by simp [seqState, Chan.freed]
  freeQuiet := fun _ => ⟨rfl, rfl, rfl, rfl⟩
  countOk := Nat.le_refl 0
  sized := nofun
  described := nofun
  paced := Nat.le_refl 0
  settled := .inl rfl
  parkedQuiet := nofun

theorem good_boundTo {e : Endpoint} (sized : e.mps ≠ 0#11) : (boundTo e).Good where
  inTable := by simp [seqState, boundTo, Transfer.zero]
  freeQuiet := nofun
  countOk := Nat.le_refl 0
  sized := fun _ => sized
  described := nofun
  paced := Nat.zero_le _
  settled := .inl rfl
  parkedQuiet := nofun

theorem good_zero : Chan.zero.Good := good_freed Chan.zero

theorem good_afterAbort (bound : c.bound = true) (good : c.Good) : (afterAbort c).Good := by
  unfold afterAbort
  split
  · exact good_dropped bound good _ _ _ _
  · exact good_dropped bound good _ _ _ _

theorem good_disconnected (good : c.Good) : c.disconnected.Good := by
  rw [Dispatcher.disconnected_eq]
  split
  next ended => exact good_dropped ended.1 good false _ _ _
  next => exact good

theorem good_afterTick (good : c.Good) : (afterTick c).Good := by
  cases parked : isParked c with
  | false => rwa [Scheduler.afterTick_of_not_parked parked]
  | true =>
    obtain ⟨⟨bound, -⟩, idle⟩ : (c.bound = true ∧ c.xfer.active = true) ∧ c.xfer.inProgress = false := by
      simpa [isParked] using parked
    have programmed : c.programmed.Good := good_programmed bound (event_none good (.inr idle)) good.countOk good.sized
      good.described good.paced
    cases periodic : isPeriodic c with
    | false => rwa [Scheduler.afterTick_of_not_periodic parked periodic]
    | true =>
      by_cases done : c.xfer.countdown.toNat ≤ 1
      · rw [Scheduler.afterTick_of_done parked periodic done]
        exact good_setCountdown programmed le_rfl
      · rw [Scheduler.afterTick_of_waiting parked periodic done]
        refine good_setCountdown good (le_trans ?_ good.paced)
        unfold countDown
        rw [BitVec.toNat_ofNat]
        exact (Nat.mod_le _ _).trans (Nat.sub_le _ _)

end

/-! ### Causes and services (R189 to R201) -/

section
variable {s : State} {i : ChanId} (good : (s.slot i).Good) (busy : (s.slot i).xfer.inProgress = true)
include good busy

theorem good_haltRequest : ((haltRequest i s).slot i).Good := by
  rw [ChannelFsm.haltRequest_eq_acted, State.acted_slot_self]
  have bound := bound_of_busy good busy
  exact good_halted bound good busy (fun marked => (inTable_iff.mp good.inTable bound marked).1) good.countOk
    good.described good.paced

theorem good_causeChh : ((causeChh i s).slot i).Good := by
  by_cases delivered : (s.slot i).xfer.active = true ∧ (s.slot i).xfer.event ≠ none
  · obtain ⟨active, marked⟩ := delivered
    obtain ⟨e, event⟩ := Option.ne_none_iff_exists'.mp marked
    rw [ChannelFsm.causeChh_delivers active event, State.acted_slot_self]
    exact good_dropped (bound_of_busy good busy) good false _ _ _
  · have parked : (s.slot i).xfer.active = false ∨ (s.slot i).xfer.event = none :=
      (not_and_or.mp delivered).imp Bool.eq_false_iff.mpr not_not.mp
    rw [ChannelFsm.causeChh_parks parked, State.acted_slot_self]
    exact good_released good parked _

theorem good_causeXfrc (active : (s.slot i).xfer.active = true) : ((causeXfrc i s).slot i).Good := by
  rw [ChannelFsm.causeXfrc_eq_acted, State.acted_slot_self]
  refine good_halted (bound_of_busy good busy) good busy (fun _ => active) ?_ good.described good.paced
  dsimp only
  split
  · exact le_rfl
  · exact good.countOk

/-- STALL and the bus errors: an event is determined, then the halt requested (R192, R196 to R198). -/
theorem good_determined (e : EpEvent) (active : (s.slot i).xfer.active = true) :
    ((haltRequest i (determine i e s)).slot i).Good := by
  rw [determine, ChannelFsm.haltRequest_modChan s i rfl, State.acted_slot_self]
  exact good_halted (bound_of_busy good busy) good busy (fun _ => active) good.countOk good.described good.paced

omit busy in
theorem good_rearm : ((rearm i s).slot i).Good := by
  rw [ChannelFsm.rearm_eq_acted, State.acted_slot_self]
  exact { good with }

theorem good_causeNak : ((causeNak i s).slot i).Good := by
  by_cases suspended : (s.slot i).xfer.token = .input ∧ (s.slot i).ep.type = .interrupt
  · rw [ChannelFsm.causeNak_suspends suspended]
    exact good_haltRequest good busy
  · rw [ChannelFsm.causeNak_rearms suspended]
    exact good_rearm good

omit busy in
theorem good_causeAck : ((causeAck i s).slot i).Good := by
  by_cases more : (s.slot i).xfer.token = .input ∧ (s.slot i).xfer.lastRx = (s.slot i).ep.mps ∧
      (s.slot i).xfer.transferred.toNat < (s.slot i).xfer.length.toNat
  · rw [ChannelFsm.causeAck_rearms more.1 more.2.1 more.2.2]
    exact good_rearm good
  · by_cases ping : (s.slot i).xfer.token = .ping
    · rw [ChannelFsm.causeAck_promotes ping, State.acted_slot_self]
      exact { good with described := fun active => ⟨nofun, (good.described active).2⟩ }
    · rwa [ChannelFsm.causeAck_nothing ping more]

/-- Whichever branch of the chain is taken (R190). -/
theorem good_resolveCause (w : CauseWord) (active : (s.slot i).xfer.active = true) :
    ((resolveCause i w s).slot i).Good := by
  have pick {p : Prop} [Decidable p] {t u : State} (ht : (t.slot i).Good) (hu : (u.slot i).Good) :
      ((if p then t else u).slot i).Good := by
    split <;> assumption
  exact pick (good_causeXfrc good busy active) (pick (good_determined good busy _ active)
    (pick (good_causeNak good busy) (pick (good_causeAck good) (pick (good_determined good busy _ active)
      (pick (good_determined good busy _ active) (pick (good_determined good busy _ active)
        (pick (good_causeChh good busy) (good_haltRequest good busy))))))))

end

theorem good_markNyet {s : State} {i : ChanId} (good : (s.slot i).Good) (busy : (s.slot i).xfer.inProgress = true)
    (active : (s.slot i).xfer.active = true) : ((markNyet i s).slot i).Good := by
  rw [ChannelFsm.markNyet_eq_acted, State.acted_slot_self]
  refine { good with
    inTable := inTable_iff.mpr fun _ _ => ⟨active, busy⟩
    freeQuiet := fun free => by simp [bound_of_busy good busy] at free
    settled := ?_ }
  rcases good.settled with unmarked | nyet | masked
  · exact .inr (.inl (by simp [unmarked]))
  · exact .inr (.inl (by simp [nyet]))
  · exact .inr (.inr masked)

theorem good_ackCauses {s : State} {i : ChanId} (good : (s.slot i).Good) : ((ackCauses i s).slot i).Good := by
  rw [ackCauses, State.modChan_slot, if_pos rfl]
  exact { good with }

/-- Every service leaves its slot good, whatever it sees (R189, R201). -/
theorem good_chanService {s : State} {i : ChanId} (good : (s.slot i).Good) : ((chanService i s).slot i).Good := by
  have acked := good_ackCauses good
  cases busy : (s.slot i).xfer.inProgress with
  | false =>
    rw [ChannelFsm.chanService_idle busy, State.acted_slot_self]
    exact good_masked good busy _
  | true =>
    have ackedBusy : ((ackCauses i s).slot i).xfer.inProgress = true := by simpa [ackCauses] using busy
    cases active : (s.slot i).xfer.active with
    | false =>
      rw [ChannelFsm.chanService_aborted busy active]
      split
      · exact good_causeChh acked ackedBusy
      · exact good_haltRequest acked ackedBusy
    | true =>
      have ackedActive : ((ackCauses i s).slot i).xfer.active = true := by simpa [ackCauses] using active
      rw [ChannelFsm.chanService_active busy active]
      split
      · have marked := good_markNyet acked ackedBusy ackedActive
        have flags : ((markNyet i (ackCauses i s)).slot i).xfer.inProgress = true ∧
            ((markNyet i (ackCauses i s)).slot i).xfer.active = true := by
          rw [ChannelFsm.markNyet_eq_acted, State.acted_slot_self]
          exact ⟨ackedBusy, ackedActive⟩
        exact good_resolveCause marked flags.1 _ flags.2
      · exact good_resolveCause acked ackedBusy _ ackedActive

/-! ### The rest of the invariant -/

/-- What the invariant reads besides the slots. -/
def controls (s : State) : Memory × Bool × Bool × Word × Bool × Bool × Bool :=
  (s.mem, s.hprt.prst, s.port.portReset, s.gintmsk, s.irqEn, s.cbPort, s.cbEp)

/-- Good slots and the same controls. -/
theorem inv_of_slots {s t : State} (inv : s.Inv) (slots : ∀ i, (t.slot i).Good) (kept : controls t = controls s) :
    t.Inv := by
  simp only [controls, Prod.mk.injEq] at kept
  obtain ⟨mem, prst, guard, gintmsk, irqEn, cbPort, cbEp⟩ := kept
  constructor
  case slots => exact slots
  case memory => rw [mem]; exact inv.memory
  case guard => rw [prst, guard]; exact inv.guard
  case masks => rw [gintmsk, irqEn]; exact inv.masks
  case sinks => rw [irqEn, cbPort, cbEp]; exact inv.sinks

section
variable {s t : State} (inv : s.Inv)
include inv

/-- One slot rewritten. -/
theorem inv_modChan {i : ChanId} {f : Chan → Chan} (good : (f (s.slot i)).Good) : (s.modChan i f).Inv := by
  refine inv_of_slots inv (fun j => ?_) rfl
  rw [State.modChan_slot]
  split
  · exact good
  · exact inv.slots j

theorem inv_abort {j : ChanId} (bound : (s.slot j).bound = true) : (abort j s).Inv := by
  refine inv_of_slots inv (fun k => ?_) (congrArg controls (ChannelTable.abort_eq j s) :)
  rw [abort_slot, ChannelTable.aborted_eq_afterAbort]
  split
  · exact good_afterAbort bound (inv.slots j)
  · exact inv.slots k

theorem inv_enqueue {j : ChanId} {token : Token} {toggle : Toggle} (buf len : Word) (bound : (s.slot j).bound = true)
    (described : token ≠ .none ∧ toggle ≠ .none) : (enqueue j token toggle buf len s).Inv := by
  refine inv_of_slots inv (fun k => ?_) (congrArg controls (ChannelFsm.enqueue_frame j token toggle buf len s) :)
  rw [enqueue, program_slot, State.modChan_slot, State.modChan_slot, if_pos rfl]
  split
  · exact good_programmed bound rfl (Nat.zero_le _) (inv.slots j).sized (fun _ => described) le_rfl
  · exact inv.slots k

theorem inv_engineClear : (engineClear s.afterDraw).Inv := by
  obtain ⟨draws, count, taken⟩ := Commands.afterDraw_eq s
  rw [taken]
  exact {
    slots := fun i => by rw [Commands.engineClear_slot]; exact good_zero
    memory := inv.memory
    guard := rfl
    masks := rfl
    sinks := fun _ => ⟨rfl, rfl⟩ }

/-- However a command ends (R250 to R257, R144 to R147, R181 to R187). -/
theorem inv_command {i : Instr} (move : Commands.CommandMove i s t) : t.Inv := by
  cases move with
  | answered => exact { inv with }
  | attached => exact { inv_engineClear inv with masks := rfl, sinks := nofun }
  | timedOut => exact { inv_engineClear inv with }
  | shutDown => exact { inv with masks := rfl, sinks := fun _ => ⟨rfl, rfl⟩ }
  | poweredUp =>
    refine { inv with slots := fun j => ?_ }
    exact (PortControl.powerUp_slot s j).symm ▸ { inv.slots j with }
  | portWritten u only signal =>
    rw [only]
    exact { inv with guard := signal.trans inv.guard }
  | resetStarted => exact { inv with guard := rfl }
  | created j e sized => exact { inv_modChan inv (i := j) (f := fun _ => boundTo e) (good_boundTo sized) with }
  | modified j devAddr speed mps bound sized =>
    have aborted := inv_abort inv bound
    exact { inv_modChan aborted (good_modified devAddr speed sized (aborted.slots j)) with }
  | deleted j bound => exact { inv_modChan (inv_abort inv bound) (good_freed _) with }
  | aborted j bound => exact { inv_abort inv bound with }
  | enqueued j token toggle buf len _ bound _ described => exact { inv_enqueue inv buf len bound described with }

end

/-! ### Passes (R222 to R227) -/

/-- The invariant while the interrupt is enabled, as it is in an invocation. -/
def Armed (s : State) : Prop := s.Inv ∧ s.irqEn = true

theorem armed_of_slots {s t : State} (armed : Armed s) (slots : ∀ i, (t.slot i).Good) (kept : controls t = controls s) :
    Armed t :=
  have irqEn : t.irqEn = s.irqEn := congrArg (fun c => c.2.2.2.2.1) kept
  ⟨inv_of_slots armed.1 slots kept, irqEn.trans armed.2⟩

theorem armed_portService (s : State) (armed : Armed s) : Armed (portService s) := by
  rw [PortControl.portService_eq]
  exact armed_of_slots armed armed.1.slots rfl

theorem armed_disconnectPass (s : State) (armed : Armed s) : Armed (disconnectPass s) :=
  armed_of_slots armed (fun i => (State.mapChans_slot s _ i).symm ▸ good_disconnected (armed.1.slots i)) rfl

/-- A drain writes only memory, the receive queue and counts; the invariant is that of the state once the receive source
is unmasked again (R225). -/
theorem inv_drained {i : ChanId} {bcnt : BitVec 11} {v u : State} (inv : (unmaskRx v).Inv)
    (drained : Invocation.Drained i bcnt v u) : (unmaskRx u).Inv := by
  cases drained with
  | dropped => exact { inv with }
  | stored ws =>
    have stored : (unmaskRx (storePacket i bcnt ws (Fifo.popped bcnt v))).Inv :=
      { inv with memory := Memory.wf_writeBytes _ _ inv.memory }
    exact inv_modChan (f := fun c => c.modXfer fun x => x.received bcnt) stored (good_received bcnt (inv.slots i))

theorem armed_rxPass (s t : State) (armed : Armed s) (h : rxPass s = .next t) : Armed t := by
  obtain ⟨inv, enabled⟩ := armed
  obtain ⟨rest, u, drained, rfl⟩ := Invocation.rxPass_next h
  have masks : (s.gintmsk &&& ~~~oneHot 4) ||| oneHot 4 = if s.irqEn then gintAll else 0#32 := by
    rw [inv.masks, enabled]
    decide
  have popped : (unmaskRx (Invocation.entryPopped rest s)).Inv := { inv with masks := masks }
  rcases drained with rfl | ⟨i, bcnt, drained⟩
  · exact ⟨popped, enabled⟩
  · refine ⟨inv_drained popped drained, ?_⟩
    cases drained <;> exact enabled

theorem armed_servicePending (i : ChanId) (s : State) (armed : Armed s) : Armed (servicePending i s) := by
  unfold servicePending
  split
  · obtain ⟨d, xs, es, -, acts⟩ := actsOn_chanService i (s.slot i) s.cbEp
    have served := good_chanService (armed.1.slots i)
    rw [acts s rfl rfl] at served ⊢
    refine armed_of_slots armed (fun j => ?_) rfl
    by_cases own : j = i
    · rwa [own]
    · rw [(ChannelFsm.onlySlot_acted s i d xs es).2 j own]
      exact armed.1.slots j
  · exact armed

theorem armed_channelPass (s : State) (armed : Armed s) : Armed (channelPass s) :=
  List.foldlRecOn (motive := Armed) chanIds (fun t i => servicePending i t) armed
    fun t ht i _ => armed_servicePending i t ht

theorem armed_sofPass (s : State) (armed : Armed s) : Armed (sofPass s) := by
  unfold sofPass
  have kept : controls (sofTick { s with sofLatch := false }) = controls s := by
    rw [Scheduler.sofTick_frame]
    simp only [controls]
  refine armed_of_slots armed (fun i => ?_) kept
  rw [Scheduler.sofTick_slot]
  exact good_afterTick (armed.1.slots i)

theorem inv_dispatcher {s t : State} (inv : s.Inv) (asserted : irqLine s = true) (ran : dispatcher s = .next t) :
    t.Inv :=
  (Invocation.dispatcher_keeps armed_portService armed_disconnectPass armed_rxPass armed_channelPass armed_sofPass
    ⟨inv, Sequencer.irqEn_of_irqLine asserted⟩ ran).1

/-! ### Steps -/

/-- Settles O17: every slot is the zero slot, and the controls are literals. -/
theorem resetMeetsTheInvariant : Obligations.ResetMeetsTheInvariant := by
  unfold Obligations.ResetMeetsTheInvariant
  exact {
    slots := fun i => by rw [Link.reset_slot]; exact good_zero
    memory := rfl
    guard := rfl
    masks := rfl
    sinks := fun _ => ⟨rfl, rfl⟩ }

theorem inv_resetEnd {s : State} (inv : s.Inv) : (resetEnd s).Inv := by
  obtain ⟨draws, count, taken⟩ := Commands.afterDraw_eq s
  rw [resetEnd, taken]
  exact { inv with guard := rfl }

theorem good_haltConfirmed {c : Chan} (good : c.Good) : c.haltConfirmed.Good :=
  have inTable := inTable_iff.mp good.inTable
  { good with inTable := inTable_iff.mpr inTable }

theorem inv_inputMove {x : Input} {s t : State} (inv : s.Inv) (move : Sequencer.InputMove s x t) : t.Inv := by
  cases move with
  | @executed _ q _ _ command ran =>
    exact inv_command (s := { s with inbox := q }) { inv with } (Commands.commandMove_of_exec command ran)
  | rejected => exact { inv with }
  | invoked asserted ran => exact inv_dispatcher inv asserted ran
  | resetEnded => exact inv_resetEnd inv
  | @caused ch => exact inv_modChan inv { inv.slots ch with }
  | @halted ch => exact inv_modChan inv (good_haltConfirmed (inv.slots ch))
  | @counted ch => exact inv_modChan inv { inv.slots ch with }
  | received | framed | portSeen | disconnected => exact { inv with }
  | @stored addr value => exact { inv with memory := memWrite_wf addr value inv.memory }
  | reset => exact { resetMeetsTheInvariant with memory := inv.memory }

/-- Settles O18: the idle step changes nothing, and an invocation, a command and every other input keep what holds. -/
theorem stepKeepsTheInvariant : Obligations.StepKeepsTheInvariant := by
  unfold Obligations.StepKeepsTheInvariant
  intro s t inv stepped
  rcases Sequencer.step_next stepped with rfl | ⟨asserted, ran⟩ | ⟨x, q, -, move⟩
  · exact inv
  · exact inv_dispatcher inv asserted ran
  · exact inv_inputMove (s := { s with inbox := q }) { inv with } move

end Sys2Proof.Proofs.Invariant
end

section
/-! SUPPORT. What every instruction leaves: traces that only grow, raw causes never raised, toggles and memory but for the
instructions that write them (10_state.md R28, R50 to R52, 20_memory.md R72, R73, 42_channel_fsm.md R205,
60_exceptions.md R298, 70_reset_and_hazards.md R322). -/

open Sys2Proof Sys2Proof.Machine Sys2Proof.Claims

namespace Sys2Proof.Proofs.Effect

/-! ### Traces, slots and memory -/

/-- Every trace of `t` continues that of `s`. -/
structure Traced (s t : State) : Prop where
  evq : s.evq <+: t.evq
  hwq : s.hwq <+: t.hwq
  resq : s.resq <+: t.resq
  tx : ∀ i, s.tx i <+: t.tx i

theorem Traced.refl (s : State) : Traced s s :=
  ⟨List.prefix_rfl, List.prefix_rfl, List.prefix_rfl, fun _ => List.prefix_rfl⟩

theorem Traced.trans {s t u : State} (h : Traced s t) (k : Traced t u) : Traced s u :=
  ⟨h.evq.trans k.evq, h.hwq.trans k.hwq, h.resq.trans k.resq, fun i => (h.tx i).trans (k.tx i)⟩

/-- The slot keeps its toggle, and its raw causes or none. -/
structure Calm (c d : Chan) : Prop where
  causes : d.hcint = c.hcint ∨ d.hcint = 0#11
  toggle : d.xfer.toggle = c.xfer.toggle

theorem Calm.refl (c : Chan) : Calm c c := ⟨.inl rfl, rfl⟩

theorem Calm.trans {c d e : Chan} (h : Calm c d) (k : Calm d e) : Calm c e where
  causes := k.causes.elim (fun kept => h.causes.imp kept.trans kept.trans) .inr
  toggle := k.toggle.trans h.toggle

/-- Traces that only grow, calm slots, the same memory. -/
structure Quiet (s t : State) : Prop where
  traces : Traced s t
  slots : ∀ c, Calm (s.slot c) (t.slot c)
  memory : t.mem = s.mem

/-- The instructions that store received bytes (R72, R73). -/
def writesMemory : Instr → Bool
  | .gintRxflvl | .rxstsInData _ _ _ _ => true
  | _ => false

/-- What the instruction `i` may have done from `s` to `t`. -/
structure Effects (i : Instr) (s t : State) : Prop where
  traces : Traced s t
  causes : ∀ c, (t.slot c).hcint = (s.slot c).hcint ∨ (t.slot c).hcint = 0#11
  toggles : ∀ c, (t.slot c).xfer.toggle = (s.slot c).xfer.toggle ∨
    (∃ h tok tog buf len rsv, i = .cmdEpTransfer h tok tog buf len rsv) ∨ (t.slot c).xfer = Transfer.zero
  memory : writesMemory i = false → t.mem = s.mem

section
variable {i : Instr} {s t u : State}

theorem Quiet.refl (s : State) : Quiet s s := ⟨.refl s, fun _ => .refl _, rfl⟩

theorem Quiet.trans (h : Quiet s u) (k : Quiet u t) : Quiet s t :=
  ⟨h.traces.trans k.traces, fun c => (h.slots c).trans (k.slots c), k.memory.trans h.memory⟩

theorem Quiet.effects (h : Quiet s t) : Effects i s t where
  traces := h.traces
  causes := fun c => (h.slots c).causes
  toggles := fun c => .inl (h.slots c).toggle
  memory := fun _ => h.memory

theorem Quiet.effects_of_next (q : Quiet s u) (h : (.next u : Result) = .next t) : Effects i s t :=
  Host.Outcome.next.inj h ▸ q.effects

theorem Effects.after (h : Quiet s u) (e : Effects i u t) : Effects i s t where
  traces := h.traces.trans e.traces
  causes := fun c => (e.causes c).elim (fun kept => (h.slots c).causes.imp kept.trans kept.trans) .inr
  toggles := fun c => (e.toggles c).imp_left fun kept => kept.trans (h.slots c).toggle
  memory := fun reads => (e.memory reads).trans h.memory

/-- Only the strobe trace, the event trace and one calm slot. -/
theorem quiet_acted {ch : ChanId} {d : Chan} (xs : List Strobe) (es : List Event) (calm : Calm (s.slot ch) d) :
    Quiet s (s.acted ch d xs es) where
  traces := ⟨List.prefix_append _ _, List.prefix_append _ _, List.prefix_rfl, fun _ => List.prefix_rfl⟩
  slots := fun c => by
    by_cases own : c = ch
    · rw [own, State.acted_slot_self]
      exact calm
    · rw [(ChannelFsm.onlySlot_acted s ch d xs es).2 c own]
      exact .refl _
  memory := rfl

theorem quiet_modChan {ch : ChanId} {f : Chan → Chan} (calm : Calm (s.slot ch) (f (s.slot ch))) :
    Quiet s (s.modChan ch f) := by
  rw [ChannelFsm.modChan_eq_acted]
  exact quiet_acted [] [] calm

theorem Effects.ret (e : Effects i s t) (w : Word) : Effects i s (t.ret w) :=
  { e with traces := { e.traces with resq := e.traces.resq.trans (List.prefix_append _ _) } }

/-- One slot rewritten, calm or with its record cleared. -/
theorem effects_modChan {ch : ChanId} {f : Chan → Chan}
    (causes : (f (s.slot ch)).hcint = (s.slot ch).hcint ∨ (f (s.slot ch)).hcint = 0#11)
    (cleared : (f (s.slot ch)).xfer = Transfer.zero) : Effects i s (s.modChan ch f) where
  traces := { Traced.refl s with }
  causes := fun c => by
    rw [State.modChan_slot]
    split
    next own => exact own ▸ causes
    next => exact .inl rfl
  toggles := fun c => by
    rw [State.modChan_slot]
    split
    · exact .inr (.inr cleared)
    · exact .inl rfl
  memory := fun _ => rfl

end

/-! ### Causes and services (R189 to R201) -/

/-- From `s` to `t` channel `ch` was acted on alone: its slot calm, at most one event emitted, its own (R203). -/
def Serves (ch : ChanId) (s t : State) : Prop :=
  ∃ d xs es, t = s.acted ch d xs es ∧ Calm (s.slot ch) d ∧ (es = [] ∨ ∃ e, es = [.ep (handleOf ch) e])

section
variable {ch : ChanId} {s t u : State}

theorem Serves.quiet (h : Serves ch s t) : Quiet s t := by
  obtain ⟨d, xs, es, rfl, calm, -⟩ := h
  exact quiet_acted xs es calm

/-- A calm rewrite with strobes and no event. -/
theorem Serves.silent {d : Chan} {xs : List Strobe} (h : t = s.acted ch d xs []) (calm : Calm (s.slot ch) d) :
    Serves ch s t := ⟨d, xs, [], h, calm, .inl rfl⟩

/-- A calm rewrite of the slot first. -/
theorem Serves.after_modChan {f : Chan → Chan} (calm : Calm (s.slot ch) (f (s.slot ch)))
    (h : Serves ch (s.modChan ch f) t) : Serves ch s t := by
  obtain ⟨d, xs, es, rfl, acted, own⟩ := h
  rw [ChannelFsm.modChan_eq_acted, State.acted_slot_self] at acted
  refine ⟨d, xs, es, ?_, calm.trans acted, own⟩
  rw [ChannelFsm.modChan_eq_acted, State.acted_acted]
  rfl

theorem serves_haltRequest (ch : ChanId) (s : State) : Serves ch s (haltRequest ch s) :=
  .silent (ChannelFsm.haltRequest_eq_acted s ch) ⟨.inl rfl, rfl⟩

theorem serves_rearm (ch : ChanId) (s : State) : Serves ch s (rearm ch s) :=
  .silent (ChannelFsm.rearm_eq_acted s ch) ⟨.inl rfl, rfl⟩

theorem serves_causeXfrc (ch : ChanId) (s : State) : Serves ch s (causeXfrc ch s) :=
  .silent (ChannelFsm.causeXfrc_eq_acted ch s) ⟨.inl rfl, rfl⟩

theorem serves_determined (ch : ChanId) (e : EpEvent) (s : State) : Serves ch s (haltRequest ch (determine ch e s)) :=
  .after_modChan (f := fun c => c.modXfer fun x => { x with event := some e }) ⟨.inl rfl, rfl⟩ (serves_haltRequest ch _)

theorem serves_causeNak (ch : ChanId) (s : State) : Serves ch s (causeNak ch s) := by
  unfold causeNak
  split
  · exact serves_haltRequest ch s
  · exact serves_rearm ch s

theorem serves_nothing (ch : ChanId) (s : State) : Serves ch s s :=
  .silent (xs := []) (by simp [State.acted, State.modChan, State.slot]) (.refl _)

theorem serves_causeAck (ch : ChanId) (s : State) : Serves ch s (causeAck ch s) := by
  dsimp only [causeAck]
  split
  · split
    · exact serves_rearm ch s
    · exact serves_nothing ch s
  · exact .silent (ChannelFsm.modChan_eq_acted s ch _) ⟨.inl rfl, rfl⟩
  · exact serves_nothing ch s

theorem serves_causeChh (ch : ChanId) (s : State) : Serves ch s (causeChh ch s) := by
  by_cases delivered : (s.slot ch).xfer.active = true ∧ (s.slot ch).xfer.event ≠ none
  · obtain ⟨active, marked⟩ := delivered
    obtain ⟨e, event⟩ := Option.ne_none_iff_exists'.mp marked
    refine ⟨_, _, _, ChannelFsm.causeChh_delivers active event, ⟨.inl rfl, rfl⟩, ?_⟩
    split
    · exact .inr ⟨e, rfl⟩
    · exact .inl rfl
  · exact .silent (ChannelFsm.causeChh_parks
      ((not_and_or.mp delivered).imp Bool.eq_false_iff.mpr not_not.mp)) ⟨.inl rfl, rfl⟩

theorem serves_markNyet (ch : ChanId) (s : State) : Serves ch s (markNyet ch s) :=
  .silent (ChannelFsm.markNyet_eq_acted ch s) ⟨.inl rfl, rfl⟩

/-- Whichever branch of the chain is taken (R190). -/
theorem serves_resolveCause (ch : ChanId) (w : CauseWord) (s : State) : Serves ch s (resolveCause ch w s) := by
  have pick {p : Prop} [Decidable p] {t u : State} (ht : Serves ch s t) (hu : Serves ch s u) :
      Serves ch s (if p then t else u) := by
    split <;> assumption
  exact pick (serves_causeXfrc ch s) (pick (serves_determined ch _ s) (pick (serves_causeNak ch s)
    (pick (serves_causeAck ch s) (pick (serves_determined ch _ s) (pick (serves_determined ch _ s)
      (pick (serves_determined ch _ s) (pick (serves_causeChh ch s) (serves_haltRequest ch s))))))))

theorem serves_chanService (ch : ChanId) (s : State) : Serves ch s (chanService ch s) := by
  have ack {t : State} (h : Serves ch (ackCauses ch s) t) : Serves ch s t := h.after_modChan ⟨.inr rfl, rfl⟩
  cases busy : (s.slot ch).xfer.inProgress with
  | false => exact .silent (ChannelFsm.chanService_idle busy) ⟨.inr rfl, rfl⟩
  | true =>
    cases active : (s.slot ch).xfer.active with
    | false =>
      rw [ChannelFsm.chanService_aborted busy active]
      split
      · exact ack (serves_causeChh ch _)
      · exact ack (serves_haltRequest ch _)
    | true =>
      rw [ChannelFsm.chanService_active busy active]
      split
      · exact ack (.after_modChan ⟨.inl rfl, rfl⟩ (serves_resolveCause ch _ _))
      · exact ack (serves_resolveCause ch _ _)

end

/-! ### Passes (R222 to R227, R260 to R263) -/

section
variable (s : State)

/-- Only the port, its word and the event trace. -/
theorem quiet_ported (hprt : Hprt) (port : Port) {evq : List Event} (grows : s.evq <+: evq) :
    Quiet s { s with hprt := hprt, port := port, evq := evq } :=
  { Quiet.refl s with traces := { Traced.refl s with evq := grows } }

theorem quiet_portConnectDetected : Quiet s (portConnectDetected s) := by
  rw [PortControl.portConnectDetected_eq]
  exact quiet_ported s _ _ (List.prefix_append _ _)

theorem quiet_portEnableChanged (pena : Bool) (pspd : BitVec 2) : Quiet s (portEnableChanged pena pspd s) := by
  rw [PortControl.portEnableChanged_eq]
  exact quiet_ported s _ _ (List.prefix_append _ _)

theorem quiet_portService : Quiet s (portService s) := by
  rw [PortControl.portService_eq]
  exact quiet_ported s _ _ ((List.prefix_append _ _).trans (List.prefix_append _ _))

theorem quiet_disconnectPass : Quiet s (disconnectPass s) where
  traces := { Traced.refl s with
    evq := by
      rw [disconnectPass, Dispatcher.emitPort_eq]
      exact List.prefix_append _ _ }
  slots := fun c => by
    have slot : (disconnectPass s).slot c = (s.slot c).disconnected := State.mapChans_slot s _ c
    rw [slot, Dispatcher.disconnected_eq]
    split <;> exact ⟨.inl rfl, rfl⟩
  memory := rfl

theorem quiet_channelPass : Quiet s (channelPass s) := by
  obtain ⟨t, strobes, events, ran, -, slots, -, -, frame⟩ := Dispatcher.channelPassServesEachPendingChannel s
  cases ran
  refine ⟨?traces, fun c => ?slots, (congrArg State.mem frame :)⟩
  case traces =>
    rw [frame]
    exact { Traced.refl s with evq := List.prefix_append _ _, hwq := List.prefix_append _ _ }
  case slots =>
    rw [slots]
    split
    · exact (serves_chanService c s).quiet.slots c
    · exact .refl _

theorem calm_afterTick (c : Chan) : Calm c (afterTick c) := by
  unfold afterTick
  split
  · exact ⟨.inr rfl, rfl⟩
  · split <;> exact ⟨.inl rfl, rfl⟩

theorem quiet_sofPass : Quiet s (sofPass s) := by
  let acknowledged : State := { s with sofLatch := false }
  have frame := Scheduler.sofTick_frame acknowledged
  have slots := Scheduler.sofTick_slot acknowledged
  have tx := Scheduler.sofTick_tx acknowledged
  unfold sofPass
  generalize sofTick acknowledged = t at frame slots tx ⊢
  refine ⟨⟨?evq, ?hwq, ?resq, fun c => ?tx⟩, fun c => ?slots, (congrArg State.mem frame :)⟩
  case evq => exact (congrArg State.evq frame).symm ▸ List.prefix_rfl
  case hwq => exact (congrArg State.hwq frame).symm ▸ List.prefix_append _ _
  case resq => exact (congrArg State.resq frame).symm ▸ List.prefix_rfl
  case tx => exact tx c ▸ List.prefix_append _ _
  case slots => exact slots c ▸ calm_afterTick _

end

/-! ### The receive path (R163, R225) -/

section
variable {i : Instr} {s t : State}

theorem effects_drained {ch : ChanId} {bcnt : BitVec 11} (writes : writesMemory i = true)
    (drained : Invocation.Drained ch bcnt s t) : Effects i s t := by
  have same : Quiet s (Fifo.popped bcnt s) := { Quiet.refl s with traces := { Traced.refl s with } }
  cases drained with
  | dropped => exact same.effects
  | stored ws =>
    have counted := (same.trans (quiet_modChan (ch := ch) (f := fun c => c.modXfer fun x => x.received bcnt)
      ⟨.inl rfl, rfl⟩)).effects (i := i)
    exact { counted with
      traces := { counted.traces with }
      memory := fun reads => by simp [writes] at reads }

theorem effects_rxPass (writes : writesMemory i = true) (h : rxPass s = .next t) : Effects i s t := by
  obtain ⟨rest, u, drained, rfl⟩ := Invocation.rxPass_next h
  rcases drained with rfl | ⟨ch, bcnt, drained⟩
  · exact { (Quiet.refl s).effects with traces := { Traced.refl s with } }
  · have effects := effects_drained writes drained
    exact { effects with traces := { effects.traces with } }

/-! ### Commands -/

theorem quiet_abort (ch : ChanId) (s : State) : Quiet s (abort ch s) := by
  unfold abort
  split
  · exact (serves_haltRequest ch s).quiet.trans (quiet_modChan ⟨.inl rfl, rfl⟩)
  · exact quiet_modChan ⟨.inl rfl, rfl⟩

theorem effects_engineClear : Effects i s (engineClear s.afterDraw) := by
  obtain ⟨draws, count, taken⟩ := Commands.afterDraw_eq s
  rw [taken]
  constructor
  case traces => exact { Traced.refl s with }
  case causes => exact fun c => .inr (by rw [Commands.engineClear_slot]; rfl)
  case toggles => exact fun c => .inr (.inr (by rw [Commands.engineClear_slot]; rfl))
  case memory => exact fun _ => rfl

theorem effects_enqueue (ch : ChanId) (token : Token) (toggle : Toggle) (buf len : Word)
    (idle : (s.slot ch).xfer.inProgress = false)
    (instr : ∃ h tok tog buf len rsv, i = .cmdEpTransfer h tok tog buf len rsv) :
    Effects i s (enqueue ch token toggle buf len s) := by
  obtain ⟨own, others⟩ := ChannelFsm.onlySlot_enqueue ch token toggle buf len s idle
  have frame := ChannelFsm.enqueue_frame ch token toggle buf len s
  have tx := ChannelFsm.enqueue_tx ch token toggle buf len s
  generalize enqueue ch token toggle buf len s = t at *
  constructor
  case traces =>
    refine ⟨?evq, ?hwq, ?resq, fun c => ?tx⟩
    case evq => exact (congrArg State.evq frame).symm ▸ List.prefix_rfl
    case hwq => exact (congrArg State.hwq frame).symm ▸ List.prefix_append _ _
    case resq => exact (congrArg State.resq frame).symm ▸ List.prefix_rfl
    case tx =>
      rw [tx]
      split
      · exact List.prefix_append _ _
      · exact List.prefix_rfl
  case causes =>
    intro c
    by_cases same : c = ch
    · exact .inr (by rw [same, own]; rfl)
    · exact .inl (by rw [others c same])
  case toggles => exact fun _ => .inr (.inl instr)
  case memory => exact fun _ => (congrArg State.mem frame :)

theorem effects_command (move : Commands.CommandMove i s t) : Effects i s t := by
  have same := (Quiet.refl s).effects (i := i)
  cases move with
  | answered w => exact same.ret w
  | attached =>
    have cleared := (effects_engineClear (i := i) (s := s)).ret stOk
    exact { cleared with traces := { cleared.traces with } }
  | timedOut => exact effects_engineClear.ret stTimeout
  | shutDown =>
    have answered := same.ret stOk
    exact { answered with traces := { answered.traces with } }
  | poweredUp =>
    have answered := same.ret stOk
    have slot := PortControl.powerUp_slot s
    exact { answered with
      traces := { answered.traces with }
      causes := fun c => .inr (congrArg Chan.hcint (slot c) :)
      toggles := fun c => .inl (congrArg (fun d => d.xfer.toggle) (slot c) :) }
  | portWritten u only =>
    rw [only]
    exact (quiet_ported s u.hprt s.port List.prefix_rfl).effects.ret stOk
  | resetStarted => exact (quiet_ported s _ _ List.prefix_rfl).effects
  | created j e => exact (effects_modChan (.inr rfl) rfl).ret _
  | modified j => exact ((quiet_abort j s).trans (quiet_modChan ⟨.inl rfl, rfl⟩)).effects.ret stOk
  | deleted j => exact (Effects.after (quiet_abort j s) (effects_modChan (.inl rfl) rfl)).ret stOk
  | aborted j => exact (quiet_abort j s).effects.ret stOk
  | enqueued j token toggle buf len instr _ idle =>
    exact (effects_enqueue j token toggle buf len idle instr).ret stOk

end

/-! ### Every instruction -/

theorem exec_effects {i : Instr} {s t : State} (h : exec i s = .next t) : Effects i s t := by
  by_cases command : isCommand i = true
  · exact effects_command (Commands.commandMove_of_exec command h)
  · cases i with
    | gintHprtint => exact (quiet_portService s).effects_of_next h
    | gintDiscint => exact (quiet_disconnectPass s).effects_of_next h
    | gintRxflvl => exact effects_rxPass rfl h
    | gintHcint => exact (quiet_channelPass s).effects_of_next h
    | gintSof => exact (quiet_sofPass s).effects_of_next h
    | hcintXfrc ch => exact (serves_causeXfrc ch s).quiet.effects_of_next h
    | hcintStall ch => exact (serves_determined ch _ s).quiet.effects_of_next h
    | hcintNak ch => exact (serves_causeNak ch s).quiet.effects_of_next h
    | hcintAck ch => exact (serves_causeAck ch s).quiet.effects_of_next h
    | hcintTxerr ch | hcintBberr ch | hcintDterr ch => exact (serves_determined ch _ s).quiet.effects_of_next h
    | hcintChh ch => exact (serves_causeChh ch s).quiet.effects_of_next h
    | hcintNyet ch => exact (serves_markNyet ch s).quiet.effects_of_next h
    | hcintRsv2 ch | hcintRsv9 ch => exact (serves_haltRequest ch s).quiet.effects_of_next h
    | rxstsInData => exact effects_drained rfl (Invocation.drainData_next h)
    | rxstsInXferDone | rxstsToggleErr | rxstsChHalted | rxstsOther => exact (Quiet.refl s).effects_of_next h
    | hprtPcdet => exact (quiet_portConnectDetected s).effects_of_next h
    | hprtPenchng pena pspd => exact (quiet_portEnableChanged s pena pspd).effects_of_next h
    | _ => exact absurd rfl command

/-- Settles O23: a raw cause word keeps its value or is cleared. -/
theorem engineNeverRaisesACause : Obligations.EngineNeverRaisesACause := by
  unfold Obligations.EngineNeverRaisesACause
  intro i s t h c
  rcases (exec_effects h).causes c with kept | cleared
  · rw [kept]
    exact BitVec.and_not_self _
  · rw [cleared]
    exact BitVec.zero_and

/-- Settles O24: the toggle keeps its value but for EP_TRANSFER and the commands that clear the record. -/
theorem toggleIsWrittenOnlyByTransfers : Obligations.ToggleIsWrittenOnlyByTransfers := by
  unfold Obligations.ToggleIsWrittenOnlyByTransfers
  intro i s t h c changed
  exact ((exec_effects h).toggles c).resolve_left changed

theorem writesMemory_eq_false {i : Instr} (noPass : i ≠ .gintRxflvl)
    (noData : ∀ ch bcnt dpid rsv, i ≠ .rxstsInData ch bcnt dpid rsv) : writesMemory i = false := by
  unfold writesMemory
  split
  · exact absurd rfl noPass
  · exact absurd rfl (noData _ _ _ _)
  · rfl

/-- Settles O26: memory as a whole is the same. -/
theorem onlyTheReceivePathWritesMemory : Obligations.OnlyTheReceivePathWritesMemory := by
  unfold Obligations.OnlyTheReceivePathWritesMemory
  intro i s t h noPass noData a
  rw [memRead, (exec_effects h).memory (writesMemory_eq_false noPass noData), memRead]

/-! ### Steps -/

theorem traced_dispatcher {s t : State} (ran : dispatcher s = .next t) : Traced s t :=
  Invocation.dispatcher_keeps (P := Traced s) (fun u h => h.trans (quiet_portService u).traces)
    (fun u h => h.trans (quiet_disconnectPass u).traces)
    (fun _ _ h received => h.trans (effects_rxPass (i := .gintRxflvl) rfl received).traces)
    (fun u h => h.trans (quiet_channelPass u).traces) (fun u h => h.trans (quiet_sofPass u).traces) (.refl s) ran

theorem traced_inputMove {x : Input} {s t : State} (noReset : x ≠ .powerOnReset) (move : Sequencer.InputMove s x t) :
    Traced s t := by
  cases move with
  | executed _ ran =>
    have effects := exec_effects ran
    exact { effects.traces with }
  | rejected => exact { Traced.refl s with resq := List.prefix_append _ _ }
  | invoked _ ran => exact traced_dispatcher ran
  | resetEnded =>
    obtain ⟨draws, count, taken⟩ := Commands.afterDraw_eq s
    rw [resetEnd, taken]
    exact { Traced.refl s with resq := List.prefix_append _ _ }
  | caused | halted | counted | received | framed | portSeen | disconnected | stored => exact { Traced.refl s with }
  | reset => exact absurd rfl noReset

/-- Settles O19: no instruction and no input but the power-on reset takes back an entry of a trace. -/
theorem stepOnlyAddsToTheTraces : Obligations.StepOnlyAddsToTheTraces := by
  unfold Obligations.StepOnlyAddsToTheTraces
  intro s t noReset stepped
  have traced : Traced s t := by
    rcases Sequencer.step_next stepped with rfl | ⟨-, ran⟩ | ⟨x, q, head, move⟩
    · exact .refl t
    · exact traced_dispatcher ran
    · have traced := traced_inputMove (fun e => noReset (by rw [head, e]; rfl)) move
      exact { traced with }
  exact ⟨traced.evq, traced.hwq, traced.resq, traced.tx⟩

/-- Nothing served from `s` to `t`: the enable, the mask, the events, the strobes and the Transfer records keep. -/
structure Unserved (s t : State) : Prop where
  irqEn : t.irqEn = s.irqEn
  gintmsk : t.gintmsk = s.gintmsk
  evq : t.evq = s.evq
  hwq : t.hwq = s.hwq
  xfer : ∀ i, (t.slot i).xfer = (s.slot i).xfer

theorem Unserved.refl (s : State) : Unserved s s := ⟨rfl, rfl, rfl, rfl, fun _ => rfl⟩

theorem unserved_modChan {s : State} {i : ChanId} {f : Chan → Chan} (kept : ∀ c, (f c).xfer = c.xfer) :
    Unserved s (s.modChan i f) := by
  refine { Unserved.refl s with xfer := fun j => ?_ }
  rw [State.modChan_slot]
  split
  next own => rw [kept, own]
  next => rfl

theorem unserved_inputMove {x : Input} {s t : State} (disabled : s.irqEn = false) (noCommand : ∀ ws, x ≠ .command ws)
    (noReset : x ≠ .powerOnReset) (move : Sequencer.InputMove s x t) : Unserved s t := by
  cases move with
  | executed | rejected => exact absurd rfl (noCommand _)
  | invoked asserted => exact absurd (Sequencer.irqEn_of_irqLine asserted) (Bool.eq_false_iff.mp disabled)
  | resetEnded =>
    obtain ⟨draws, count, taken⟩ := Commands.afterDraw_eq s
    rw [resetEnd, taken]
    exact { Unserved.refl s with }
  | caused | halted | counted => exact unserved_modChan fun _ => rfl
  | received | framed | portSeen | disconnected | stored => exact { Unserved.refl s with }
  | reset => exact absurd rfl noReset

/-- Settles O20: the line is low, so no invocation runs, and no other move writes these fields. -/
theorem nothingIsServedBeforeStartUp : Obligations.NothingIsServedBeforeStartUp := by
  unfold Obligations.NothingIsServedBeforeStartUp
  intro s t disabled masked noCommand noReset stepped
  have low : irqLine s ≠ true := fun asserted =>
    Bool.eq_false_iff.mp disabled (Sequencer.irqEn_of_irqLine asserted)
  have unserved : Unserved s t := by
    rcases Sequencer.step_next stepped with rfl | ⟨asserted, -⟩ | ⟨x, q, head, move⟩
    · exact .refl t
    · exact absurd asserted low
    · have oldest : s.inbox.head? = some x := by rw [head]; rfl
      have unserved := unserved_inputMove (s := { s with inbox := q }) disabled
        (fun ws e => noCommand ws (e ▸ oldest)) (fun e => noReset (e ▸ oldest)) move
      exact { unserved with }
  exact ⟨unserved.irqEn.trans disabled, unserved.gintmsk.trans masked, unserved.evq, unserved.hwq, unserved.xfer⟩

end Sys2Proof.Proofs.Effect
end

section
/-! SUPPORT. The events of one invocation, pass by pass, and their order (43_interrupt_dispatcher.md R223 to R229). -/

open Sys2Proof Sys2Proof.Machine Sys2Proof.Claims

namespace Sys2Proof.Proofs.Events

/-! ### The events of each pass -/

theorem rxPass_evq {s t : State} (h : rxPass s = .next t) : t.evq = s.evq := by
  obtain ⟨rest, u, drained, rfl⟩ := Invocation.rxPass_next h
  rcases drained with rfl | ⟨ch, bcnt, drained⟩
  · rfl
  · cases drained <;> rfl

theorem sofPass_evq (s : State) : (sofPass s).evq = s.evq :=
  (congrArg State.evq (Scheduler.sofTick_frame { s with sofLatch := false }) :)

/-- The events of the port and the disconnect pass in their order (R229). -/
def portEvents : List Event := [.port .connect, .port .reset, .port .disconnect]

theorem sublist_of_ite (p : Prop) [Decidable p] (e : Event) : (if p then [e] else []).Sublist [e] := by
  split
  · exact .refl _
  · exact List.nil_sublist _

theorem portService_evq (s : State) :
    ∃ es, (portService s).evq = s.evq ++ es ∧ es.Sublist [.port .connect, .port .reset] := by
  rw [PortControl.portService_eq]
  exact ⟨_, List.append_assoc _ _ _, (sublist_of_ite _ _).append (sublist_of_ite _ _)⟩

theorem disconnectPass_evq (s : State) :
    ∃ es, (disconnectPass s).evq = s.evq ++ es ∧ es.Sublist [.port .disconnect] := by
  rw [disconnectPass, Dispatcher.emitPort_eq]
  exact ⟨_, rfl, sublist_of_ite _ _⟩

/-- A pass that is skipped emits nothing. -/
theorem passIf_evq {f : State → State} {P : List Event → Prop} (emits : ∀ s, ∃ es, (f s).evq = s.evq ++ es ∧ P es)
    (nothing : P []) (b : Bool) (s : State) : ∃ es, (passIf b f s).evq = s.evq ++ es ∧ P es := by
  cases b
  · exact ⟨[], (List.append_nil _).symm, nothing⟩
  · exact emits s

theorem afterTwoPasses_evq (s : State) :
    ∃ es, (Invocation.afterTwoPasses s).evq = s.evq ++ es ∧ es.Sublist portEvents := by
  obtain ⟨es, hes, sub⟩ := passIf_evq portService_evq (List.nil_sublist _) (bit (snapshot s) 24) s
  obtain ⟨fs, hfs, sub'⟩ := passIf_evq disconnectPass_evq (List.nil_sublist _) (bit (snapshot s) 29)
    (passIf (bit (snapshot s) 24) portService s)
  exact ⟨es ++ fs, by rw [Invocation.afterTwoPasses, hfs, hes, List.append_assoc], sub.append sub'⟩

/-! ### The events of the channel pass -/

/-- What the channels in `l` append, in ascending order: each at most one event, and that its own (R203, R226). -/
def ByChannel (es : List Event) : Prop :=
  ∃ (l : List ChanId) (events : ChanId → List Event), es = l.flatMap events ∧ l.Pairwise (· < ·) ∧
    ∀ i ∈ l, events i = [] ∨ ∃ e, events i = [.ep (handleOf i) e]

theorem byChannel_nil : ByChannel [] := ⟨[], fun _ => [], rfl, .nil, by simp⟩

theorem channelPass_evq (s : State) : ∃ es, (channelPass s).evq = s.evq ++ es ∧ ByChannel es := by
  obtain ⟨t, strobes, events, ran, services, -, -, -, frame⟩ := Dispatcher.channelPassServesEachPendingChannel s
  obtain rfl : channelPass s = t := Host.Outcome.next.inj ran
  refine ⟨_, congrArg State.evq frame, _, events, rfl, (List.pairwise_lt_finRange 16).filter _, fun i hi => ?_⟩
  obtain ⟨-, emitted, -⟩ := services i (List.mem_filter.mp hi).2
  obtain ⟨d, xs, es, served, -, own⟩ := Effect.serves_chanService i s
  have : events i = es := by
    rw [served] at emitted
    exact (List.append_cancel_left emitted).symm
  rwa [this]

/-! ### Their order (R229) -/

theorem eventRank_handle (i : ChanId) (e : EpEvent) : eventRank (.ep (handleOf i) e) = 3 + i.val := by
  revert i; cases e <;> decide

/-- The first event stands strictly before the second. -/
def Before (e f : Event) : Prop := eventRank e < eventRank f

theorem ordered_of_sublist {es : List Event} (sub : es.Sublist portEvents) : es.Pairwise Before :=
  .sublist sub (by unfold portEvents Before; decide)

theorem rank_le_two {es : List Event} (sub : es.Sublist portEvents) : ∀ e ∈ es, eventRank e ≤ 2 :=
  fun e he => (by decide : ∀ e ∈ portEvents, eventRank e ≤ 2) e (sub.subset he)

/-- An event of a channel has the rank of the channel. -/
theorem eventRank_of_own {i : ChanId} {es : List Event} (own : es = [] ∨ ∃ e, es = [.ep (handleOf i) e]) {f : Event}
    (hf : f ∈ es) : eventRank f = 3 + i.val := by
  rcases own with rfl | ⟨e, rfl⟩
  · cases hf
  · rw [List.mem_singleton.mp hf, eventRank_handle]

theorem ordered_of_byChannel {es : List Event} (h : ByChannel es) :
    es.Pairwise Before ∧ ∀ e ∈ es, 3 ≤ eventRank e := by
  obtain ⟨l, events, rfl, ascending, own⟩ := h
  constructor
  · rw [List.pairwise_flatMap]
    constructor
    · intro i hi
      rcases own i hi with none | ⟨e, one⟩
      · rw [none]; exact .nil
      · rw [one]; exact List.pairwise_singleton _ _
    · refine ascending.imp_of_mem fun {i j} hi hj less e he f hf => ?_
      rw [Before, eventRank_of_own (own i hi) he, eventRank_of_own (own j hj) hf]
      exact Nat.add_lt_add_left less 3
  · intro e he
    obtain ⟨i, hi, he⟩ := List.mem_flatMap.mp he
    rw [eventRank_of_own (own i hi) he]
    omega

theorem dispatcher_evq {s t : State} (ran : dispatcher s = .next t) :
    ∃ es, t.evq = s.evq ++ es ∧ es.Pairwise Before := by
  obtain ⟨u, received, rfl⟩ := Invocation.dispatcher_next ran
  obtain ⟨es, hes, front⟩ := afterTwoPasses_evq s
  have hu : u.evq = s.evq ++ es := by
    rcases received with rfl | received
    · exact hes
    · rw [rxPass_evq received, hes]
  obtain ⟨fs, hfs, channels⟩ := passIf_evq channelPass_evq byChannel_nil (bit (snapshot s) 25) u
  obtain ⟨ordered, high⟩ := ordered_of_byChannel channels
  refine ⟨es ++ fs, ?trace, List.pairwise_append.mpr ⟨ordered_of_sublist front, ordered, fun e he f hf => ?between⟩⟩
  case trace =>
    have last (v : State) : (passIf (bit (snapshot s) 3) sofPass v).evq = v.evq := by
      cases bit (snapshot s) 3
      · rfl
      · exact sofPass_evq v
    rw [last, hfs, hu, List.append_assoc]
  case between => exact (rank_le_two front e he).trans_lt (high f hf)

/-- Settles O27: the first two passes emit a part of `portEvents`, the channel pass events of higher rank by channel. -/
theorem invocationEventsAreOrdered : Obligations.InvocationEventsAreOrdered := by
  unfold Obligations.InvocationEventsAreOrdered
  constructor
  · rintro s t (received | ticked)
    · exact rxPass_evq received
    · exact Host.Outcome.next.inj ticked ▸ sofPass_evq s
  · intro s t q head stepped
    have served := (Link.step_of_inbox_cons head).symm.trans stepped
    obtain ⟨es, trace, ordered⟩ := dispatcher_evq (Sequencer.takeInterrupt_next served).2
    exact ⟨es, trace, List.pairwise_map.mpr ordered⟩

end Sys2Proof.Proofs.Events
end

section
/-! SUPPORT. The port and the receive pass as runs of decoded words, and the interrupt line by its sources (10_state.md R30,
R39, R41, 45_port_controller.md R260, 41_fifo_transport.md R163). -/

open Sys2Proof Sys2Proof.Machine Sys2Proof.Claims

namespace Sys2Proof.Proofs.Words

/-! ### The passes run what their words decode to -/

theorem decodeHprt_toWord (r : Hprt) :
    decodeHprt r.toWord = keepIf r.pcdet .hprtPcdet ++ keepIf r.penchng (.hprtPenchng r.pena r.pspd) := by
  obtain ⟨-, pcdet, pena, penchng, -, -, -, -, -, -, -, pspd, -⟩ := Codec.registerImagesFollowTheirLayouts.2.2 r
  rw [decodeHprt, pcdet, pena, penchng, pspd]

theorem runList_decodeHprt (s : State) : runList (decodeHprt s.hprt.toWord) s = .next (portService s) := by
  have connect := Dispatcher.runList_keepIf_append (i := .hprtPcdet) (f := portConnectDetected) fun _ => rfl
  have enable := Dispatcher.runList_keepIf_append (i := .hprtPenchng s.hprt.pena s.hprt.pspd)
    (f := portEnableChanged s.hprt.pena s.hprt.pspd) fun _ => rfl
  rw [decodeHprt_toWord, connect, ← List.append_nil (keepIf _ _), enable]
  rfl

/-- Whatever class a status word has, its meaning is the drain of the entry (R163, R165). -/
theorem exec_decodeRxsts (w : Word) (s : State) : exec (decodeRxsts w) s = drainEntry w s := by
  by_cases data : field w 17 4 = 2#4
  · simp only [decodeRxsts, drainEntry, data, beq_self_eq_true, if_true]
    rfl
  · have noData : (field w 17 4 == 2#4) = false := beq_false_of_ne data
    simp only [decodeRxsts, drainEntry, data, noData, if_false, Bool.false_eq_true]
    split
    · rfl
    · split
      · rfl
      · split <;> rfl

/-- Settles O8: the port pass serves the two change bits in the decoder's order; the receive pass drains its entry between
masking and unmasking. -/
theorem passesRunTheDecodedWords : Obligations.PassesRunTheDecodedWords := by
  unfold Obligations.PassesRunTheDecodedWords
  intro s
  refine ⟨(runList_decodeHprt s).symm, fun w rest head => ?_⟩
  have popped : drainRx (maskRx s) = drainEntry w { maskRx s with rxstsQ := rest } := by
    simp only [drainRx, State.popStatus, maskRx, head]
  have received : exec .gintRxflvl s = rxPass s := rfl
  rw [received, rxPass, popped, exec_decodeRxsts]
  rfl

/-! ### The interrupt line (R30, R39, R41, R110) -/

theorem oneHot_and_eq_zero_iff {k : Nat} (h : k < 32) (m : Word) : oneHot k &&& m = 0#32 ↔ m.getLsbD k = false := by
  have bound : 2 ^ k < 2 ^ 32 := Nat.pow_lt_pow_right (by decide) h
  have power : oneHot k = BitVec.twoPow 32 k :=
    BitVec.eq_of_toNat_eq (by rw [oneHot, BitVec.toNat_ofNat, BitVec.toNat_twoPow])
  have nonzero : BitVec.twoPow 32 k ≠ 0#32 := by
    rw [← BitVec.toNat_ne_iff_ne, BitVec.toNat_twoPow, Nat.mod_eq_of_lt bound]
    exact (Nat.two_pow_pos k).ne'
  rw [power, BitVec.twoPow_and]
  cases m.getLsbD k <;> simp [nonzero]

/-- A source shows through the mask if it is pending and unmasked. -/
theorem sourceBit_and_eq_zero_iff {k : Nat} (h : k < 32) (on : Bool) (m : Word) :
    sourceBit on k &&& m = 0#32 ↔ ¬(on = true ∧ m.getLsbD k = true) := by
  cases on with
  | false => simp [sourceBit]
  | true => simp only [sourceBit, if_true, oneHot_and_eq_zero_iff h, true_and, Bool.not_eq_true]

theorem chanPending_iff {s : State} : chanPending s = true ↔ ∃ i, (s.slot i).hcint &&& (s.slot i).hcintmsk ≠ 0#11 := by
  simp [chanPending, Chan.pending, Chan.seen, mem_chanIds]

theorem hprtPending_iff {s : State} : hprtPending s = true ↔ s.hprt.pcdet = true ∨ s.hprt.penchng = true :=
  Bool.or_eq_true_iff

theorem rxPending_iff {s : State} : rxPending s = true ↔ s.rxstsQ ≠ [] := by
  simp [rxPending]

/-- The snapshot is zero exactly if each of its five source bits is. -/
theorem snapshot_eq_zero_iff {s : State} : snapshot s = 0#32 ↔
    ((((¬(s.discLatch = true ∧ s.gintmsk.getLsbD 29 = true) ∧ ¬(chanPending s = true ∧ s.gintmsk.getLsbD 25 = true)) ∧
      ¬(hprtPending s = true ∧ s.gintmsk.getLsbD 24 = true)) ∧ ¬(rxPending s = true ∧ s.gintmsk.getLsbD 4 = true)) ∧
      ¬(s.sofLatch = true ∧ s.gintmsk.getLsbD 3 = true)) := by
  simp (disch := decide) only [snapshot, gintsts, BitVec.and_or_distrib_right, BitVec.or_eq_zero_iff,
    sourceBit_and_eq_zero_iff]

/-- Settles O11: an asserted line is the enable with a snapshot some source shows in. -/
theorem interruptLineIsAnUnmaskedPendingSource : Obligations.InterruptLineIsAnUnmaskedPendingSource := by
  unfold Obligations.InterruptLineIsAnUnmaskedPendingSource
  intro s
  rw [irqLine, Bool.and_eq_true, bne_iff_ne, Ne, snapshot_eq_zero_iff, chanPending_iff, hprtPending_iff, rxPending_iff]
  simp only [← not_or, not_not, or_assoc]

end Sys2Proof.Proofs.Words
end

section
/-! SUPPORT. A parked periodic channel over the ticks of its interval (44_retry_scheduler.md R241). -/

open Sys2Proof Sys2Proof.Machine Sys2Proof.Claims

namespace Sys2Proof.Proofs.Interval

theorem iterate_sofTick_slot (k : Nat) (s : State) (i : ChanId) :
    (sofTick^[k] s).slot i = afterTick^[k] (s.slot i) := by
  induction k generalizing s with
  | zero => rfl
  | succ k ih => rw [Function.iterate_succ_apply, ih, Scheduler.sofTick_slot, ← Function.iterate_succ_apply]

/-- The slot waits: parked and periodic, `n` ticks of its countdown left. -/
structure Waits (c : Chan) (n : Nat) : Prop where
  parked : isParked c = true
  periodic : isPeriodic c = true
  left : c.xfer.countdown.toNat = n

section
variable {c : Chan} {n : Nat}

theorem Waits.idle (h : Waits c n) : c.xfer.inProgress = false := by
  simpa [isParked] using (Bool.and_eq_true_iff.mp h.parked).2

/-- With more than one tick left a tick only counts down (R241). -/
theorem Waits.tick (h : Waits c (n + 2)) : Waits (afterTick c) (n + 1) ∧ (afterTick c).ep = c.ep := by
  have more : ¬c.xfer.countdown.toNat ≤ 1 := by rw [h.left]; omega
  rw [Scheduler.afterTick_of_waiting h.parked h.periodic more]
  refine ⟨⟨h.parked, h.periodic, ?_⟩, rfl⟩
  have small := c.xfer.countdown.isLt
  have counted : (countDown c.xfer.countdown).toNat = c.xfer.countdown.toNat - 1 := by
    rw [countDown, BitVec.toNat_ofNat, Nat.mod_eq_of_lt (by omega)]
  exact counted.trans (by rw [h.left]; rfl)

/-- The tick of the last count re-arms the channel and reloads the countdown (R241). -/
theorem Waits.last (h : Waits c n) (due : n ≤ 1) :
    (afterTick c).xfer.inProgress = true ∧ (afterTick c).xfer.countdown = c.ep.reload := by
  rw [Scheduler.afterTick_of_done h.parked h.periodic (h.left.trans_le due)]
  exact ⟨rfl, rfl⟩

theorem Waits.iterate (h : Waits c n) {k : Nat} (before : k < max 1 n) :
    Waits (afterTick^[k] c) (n - k) ∧ (afterTick^[k] c).ep = c.ep := by
  induction k with
  | zero => exact ⟨h, rfl⟩
  | succ k ih =>
    obtain ⟨waits, ep⟩ := ih (by omega)
    obtain ⟨m, hm⟩ : ∃ m, n - k = m + 2 := ⟨n - k - 2, by omega⟩
    rw [hm] at waits
    rw [Function.iterate_succ_apply', ← ep, show n - (k + 1) = m + 1 by omega]
    exact waits.tick

end

/-- Settles O55: the countdown falls by one a tick until the last tick of the interval re-arms the channel. -/
theorem periodicChannelWaitsItsInterval : Obligations.PeriodicChannelWaitsItsInterval := by
  unfold Obligations.PeriodicChannelWaitsItsInterval
  rintro s i n parked periodic fresh rfl
  have start : Waits (s.slot i) (s.slot i).ep.reload.toNat := ⟨parked, periodic, congrArg BitVec.toNat fresh⟩
  constructor
  · intro k before
    obtain ⟨waits, -⟩ := start.iterate before
    rw [iterate_sofTick_slot]
    exact ⟨waits.idle, waits.left⟩
  · obtain ⟨m, hm⟩ : ∃ m, max 1 (s.slot i).ep.reload.toNat = m + 1 :=
      ⟨_, (Nat.sub_add_cancel (Nat.le_max_left _ _)).symm⟩
    obtain ⟨waits, ep⟩ := start.iterate (k := m) (by omega)
    rw [hm, iterate_sofTick_slot, Function.iterate_succ_apply', ← ep]
    exact waits.last (by omega)

end Sys2Proof.Proofs.Interval
end
